-- ==== Sys2Proof/Word.lean ====
section
/-! DEFINITION. The word types of the block (spec/00_scope.md R6, R7). -/

namespace Sys2Proof

/-- A raw sample, and every value the codec extracts from one: 32 bits (`RAW_WIDTH`, `SUM_WIDTH`; R6, R9). -/
abbrev Word := BitVec 32

/-- A payload, key code, capacity, length or buffered byte: 8 bits (R6, R15). -/
abbrev Byte := BitVec 8

/-- The significant bits of a sample: 24 bits (`SIG_WIDTH`, R6; the field `frame24` of R107). -/
abbrev FrameBits := BitVec 24

end Sys2Proof
end

