-- ==== Sys2Proof/Config.lean ====
section
/-! DEFINITION. What is fixed for one block instance (spec/00_scope.md R6): the layout, the layout profile as data
(spec/30_encoding.md R53), the violation policy, the fixed widths, and the one free value of the model. -/

namespace Sys2Proof

/-- `LAYOUT` (R6): which of the two frame layouts an instance decodes. Also the `kind` of a profile (R53). -/
inductive Layout where
  | a
  | b
deriving DecidableEq, Repr

/-- `VIOLATION_POLICY` (spec/60_exceptions.md R127). -/
inductive ViolationPolicy where
  | halt
  | skip
deriving DecidableEq, Repr

/-- The field names of the two layouts (R49, R52). -/
inductive FieldName where
  | isMetadata
  | messageType
  | sequenceNumber
  | checksum
  | payload
  | keyCode
  | isVirtualKey
  | ctrl
  | alt
  | shift
  | win
deriving DecidableEq, Repr

/-- One field of a profile (`FieldSpec`, R53). -/
structure FieldSpec where
  name : FieldName
  lsb : Nat
  width : Nat
deriving DecidableEq, Repr

/-- A layout profile: the data the one generic decode routine reads (`Profile`, R53). -/
structure Profile where
  kind : Layout
  fields : List FieldSpec
  csum : FieldName
  summed : List FieldName
  divisor : Nat
deriving DecidableEq, Repr

/-- The parameters of one block instance that a model takes as arguments (R6): `LAYOUT`, `PROFILE` and
`VIOLATION_POLICY`. No step writes them. -/
structure Params where
  layout : Layout
  profile : Profile
  policy : ViolationPolicy
deriving DecidableEq, Repr

/-- `BUF_DEPTH` (R6): bytes of buffer storage; the indices are 0 to 254 (spec/20_memory.md R30). -/
abbrev bufDepth : Nat := 255

/-- FREE VALUE (log 7). The level of an output port lane that carries no value: `tick` is the step the port is looked
at in, `lane` tells the lanes of the block apart. Nothing constrains it (spec/93_implementation_defined.md U10, U11). -/
opaque Config.undriven (w : Nat) (tick lane : Nat) : BitVec w

end Sys2Proof
end

