-- ==== Sys2Proof/Syntax.lean ====
section
/-! DEFINITION. The instructions: one constructor for each row of spec/opcode_table.json (spec/30_encoding.md R56, R57),
with every field of the row's encoding as an operand but the checksum, which the other fields decide
(spec/40_frame_codec.md R72, R73). -/

namespace Sys2Proof

/-- The key record of a Layout B frame (spec/40_frame_codec.md R67, R80). -/
structure KeyRecord where
  keyCode : Byte
  isVirtualKey : Bool
  ctrl : Bool
  alt : Bool
  shift : Bool
  win : Bool
deriving DecidableEq, Repr

/-- A checksum-valid sample, classified. `seq` is the sequence number; a profile fixes its width, so it is held
zero-extended (R55, W5, W6 of R54). `ignored` holds the bits of the sample that no field covers, in place: bits 31 to
24 and any uncovered bit of 23 to 0 (R46, R54). -/
inductive Instr where
  /-- DECL, DeclareLength (R75). -/
  | decl (len : Byte) (seq ignored : Word)
  /-- EOM, EndOfMessage; its payload `pad` is ignored but enters the checksum (R76, R61). -/
  | eom (pad : Byte) (seq ignored : Word)
  /-- DATA, DataByte (R77). -/
  | data (value : Byte) (seq ignored : Word)
  /-- The rejected class INVALID_METADATA_TYPE: message type 0x1 to 0xE with `is_metadata = 1` (R78). -/
  | invalidMetadataType (code : BitVec 4) (payload : Byte) (seq ignored : Word)
  /-- The rejected class INVALID_DATA_TYPE: message type 0x1 to 0xF with `is_metadata = 0` (R79). -/
  | invalidDataType (code : BitVec 4) (payload : Byte) (seq ignored : Word)
  /-- KEY, the Layout B key record (R80). -/
  | key (code : Byte) (isVirtualKey ctrl alt shift win : Bool) (seq ignored : Word)
deriving DecidableEq, Repr

/-- The layout whose frames the instruction belongs to (R56, R57). -/
def Instr.layout : Instr → Layout
  | .decl .. => .a
  | .eom .. => .a
  | .data .. => .a
  | .invalidMetadataType .. => .a
  | .invalidDataType .. => .a
  | .key .. => .b

/-- The operand that holds the sequence number. -/
def Instr.seq : Instr → Word
  | .decl _ seq _ => seq
  | .eom _ seq _ => seq
  | .data _ seq _ => seq
  | .invalidMetadataType _ _ seq _ => seq
  | .invalidDataType _ _ seq _ => seq
  | .key _ _ _ _ _ _ seq _ => seq

/-- The operand that holds the bits no field covers. -/
def Instr.ignored : Instr → Word
  | .decl _ _ ignored => ignored
  | .eom _ _ ignored => ignored
  | .data _ _ ignored => ignored
  | .invalidMetadataType _ _ _ ignored => ignored
  | .invalidDataType _ _ _ ignored => ignored
  | .key _ _ _ _ _ _ _ ignored => ignored

end Sys2Proof
end

