-- ==== Sys2Proof/Machine/Operands.lean ====
section
/-! DEFINITION. Operand forms: the two default profiles, extracting a field of a sample, the value an instruction gives
each field, the averaging checksum, and the well-formedness of a profile. -/

namespace Sys2Proof

/-- `PROFILE_A` (spec/30_encoding.md R49). -/
def profileA : Profile where
  kind := .a
  fields :=
    [⟨.isMetadata, 23, 1⟩, ⟨.messageType, 19, 4⟩, ⟨.sequenceNumber, 15, 4⟩, ⟨.checksum, 8, 7⟩, ⟨.payload, 0, 8⟩]
  csum := .checksum
  summed := [.isMetadata, .messageType, .sequenceNumber, .payload]
  divisor := 4

/-- `PROFILE_B`, the default Layout B profile (spec/30_encoding.md R52). -/
def profileB : Profile where
  kind := .b
  fields :=
    [⟨.sequenceNumber, 20, 4⟩, ⟨.checksum, 13, 7⟩, ⟨.keyCode, 5, 8⟩, ⟨.isVirtualKey, 4, 1⟩, ⟨.ctrl, 3, 1⟩, ⟨.alt, 2, 1⟩,
      ⟨.shift, 1, 1⟩, ⟨.win, 0, 1⟩]
  csum := .checksum
  summed := [.sequenceNumber, .keyCode, .isVirtualKey, .ctrl, .alt, .shift, .win]
  divisor := 7

/-- The low `width` bits set: `2^F.width - 1` of R55. -/
def FieldSpec.ones (F : FieldSpec) : Word := BitVec.ofNat 32 (2 ^ F.width - 1)

/-- `field(raw, F)`: mask, shift, zero-extend (R9, R55). -/
def field (raw : Word) (F : FieldSpec) : Word := (raw >>> F.lsb) &&& F.ones

/-- The bits of a sample that the field covers (the mask columns of R49, R52). -/
def FieldSpec.mask (F : FieldSpec) : Word := F.ones <<< F.lsb

/-- The field of that name, where the profile has one. -/
def Profile.find (P : Profile) (n : FieldName) : Option FieldSpec := P.fields.find? (fun F => decide (F.name = n))

/-- `v[n]` of R82: the value of the named field in a sample (0 for a name the profile does not have, which no
well-formed profile asks for). -/
def Profile.read (P : Profile) (raw : Word) (n : FieldName) : Word :=
  match P.find n with
  | some F => field raw F
  | none => 0

/-- The width of the named field; 0 for a name the profile does not have. -/
def Profile.width (P : Profile) (n : FieldName) : Nat :=
  match P.find n with
  | some F => F.width
  | none => 0

/-- All bits of a sample that some field covers. -/
def Profile.mask (P : Profile) : Word := P.fields.foldr (fun F m => F.mask ||| m) 0

/-- The checksum sum in its 32-bit unsigned accumulator (spec/40_frame_codec.md R71, R72). -/
def checksumSum (P : Profile) (v : FieldName → Word) : Word := P.summed.foldr (fun n acc => v n + acc) 0

/-- `avg[7:0]`: the sum divided by the profile's divisor, truncating, low-order byte (R72). -/
def checksumOf (P : Profile) (v : FieldName → Word) : Byte := BitVec.ofNat 8 ((checksumSum P v).toNat / P.divisor)

/-- `computed(raw, PROFILE)` (R72). -/
def computed (P : Profile) (raw : Word) : Byte := checksumOf P (P.read raw)

/-- The checksum condition of R73: the 8-bit computed value equals the checksum field, zero-extended. -/
def checksumValid (P : Profile) (raw : Word) : Bool := decide ((computed P raw).setWidth 32 = P.read raw P.csum)

/-- "treating boolean flags as 0/1" (R55, R72). -/
def flagWord (b : Bool) : Word := if b then 1 else 0

/-- The value the instruction gives the named field of its layout: its class decides `is_metadata` and
`message_type`, its operands the rest (R56, R57, R75 to R80). The checksum field is not an operand. -/
def Instr.operand : Instr → FieldName → Word
  | .decl _ _ _, .isMetadata => 1
  | .decl _ _ _, .messageType => 0
  | .decl _ seq _, .sequenceNumber => seq
  | .decl len _ _, .payload => len.setWidth 32
  | .eom _ _ _, .isMetadata => 1
  | .eom _ _ _, .messageType => 15
  | .eom _ seq _, .sequenceNumber => seq
  | .eom pad _ _, .payload => pad.setWidth 32
  | .data _ _ _, .isMetadata => 0
  | .data _ _ _, .messageType => 0
  | .data _ seq _, .sequenceNumber => seq
  | .data value _ _, .payload => value.setWidth 32
  | .invalidMetadataType _ _ _ _, .isMetadata => 1
  | .invalidMetadataType code _ _ _, .messageType => code.setWidth 32
  | .invalidMetadataType _ _ seq _, .sequenceNumber => seq
  | .invalidMetadataType _ payload _ _, .payload => payload.setWidth 32
  | .invalidDataType _ _ _ _, .isMetadata => 0
  | .invalidDataType code _ _ _, .messageType => code.setWidth 32
  | .invalidDataType _ _ seq _, .sequenceNumber => seq
  | .invalidDataType _ payload _ _, .payload => payload.setWidth 32
  | .key _ _ _ _ _ _ seq _, .sequenceNumber => seq
  | .key code _ _ _ _ _ _ _, .keyCode => code.setWidth 32
  | .key _ isVirtualKey _ _ _ _ _ _, .isVirtualKey => flagWord isVirtualKey
  | .key _ _ ctrl _ _ _ _ _, .ctrl => flagWord ctrl
  | .key _ _ _ alt _ _ _ _, .alt => flagWord alt
  | .key _ _ _ _ shift _ _ _, .shift => flagWord shift
  | .key _ _ _ _ _ win _ _, .win => flagWord win
  | _, _ => 0

/-- The checksum an encoder writes for the instruction (R64, R65, R72). -/
def Instr.checksum (P : Profile) (i : Instr) : Byte := checksumOf P i.operand

/-- The value of every field of the instruction's sample, the checksum field among them. -/
def Instr.fieldValue (P : Profile) (i : Instr) (n : FieldName) : Word :=
  if n = P.csum then (i.checksum P).setWidth 32 else i.operand n

/-! The well-formedness of a profile, condition by condition (spec/30_encoding.md R54). -/

/-- W1: every field is at least one bit wide and lies within bits 23 to 0. -/
abbrev Profile.W1 (P : Profile) : Prop := ∀ F ∈ P.fields, 1 ≤ F.width ∧ F.lsb + F.width ≤ 24

/-- W2: no two fields share a bit. -/
abbrev Profile.W2 (P : Profile) : Prop :=
  P.fields.Pairwise (fun F G => F.lsb + F.width ≤ G.lsb ∨ G.lsb + G.width ≤ F.lsb)

/-- W3: field names are unique; the checksum names a field of at most 8 bits and is not summed; every summed name
names a field. -/
abbrev Profile.W3 (P : Profile) : Prop :=
  (P.fields.map FieldSpec.name).Nodup ∧ (∃ F ∈ P.fields, F.name = P.csum ∧ F.width ≤ 8) ∧ P.csum ∉ P.summed ∧
    ∀ n ∈ P.summed, n ∈ P.fields.map FieldSpec.name

/-- W4: the divisor is at least 1. -/
abbrev Profile.W4 (P : Profile) : Prop := 1 ≤ P.divisor

/-- W5: the fields of a profile of kind `A`. -/
abbrev Profile.W5 (P : Profile) : Prop :=
  (P.fields.map FieldSpec.name).Perm [.isMetadata, .messageType, .sequenceNumber, P.csum, .payload] ∧
    P.width .isMetadata = 1 ∧ P.width .messageType = 4 ∧ P.width .payload = 8

/-- W6: the fields of a profile of kind `B`. -/
abbrev Profile.W6 (P : Profile) : Prop :=
  (P.fields.map FieldSpec.name).Perm
      [.sequenceNumber, P.csum, .keyCode, .isVirtualKey, .ctrl, .alt, .shift, .win] ∧
    P.width .keyCode = 8 ∧ P.width .isVirtualKey = 1 ∧ P.width .ctrl = 1 ∧ P.width .alt = 1 ∧ P.width .shift = 1 ∧
    P.width .win = 1

/-- A well-formed profile: W1 to W4, and W5 or W6 by its kind (R54). -/
abbrev Profile.WF (P : Profile) : Prop :=
  P.W1 ∧ P.W2 ∧ P.W3 ∧ P.W4 ∧ (P.kind = .a → P.W5) ∧ (P.kind = .b → P.W6)

/-- An instance exists only for a well-formed profile of its own layout's kind (R6, R54,
spec/70_reset_and_hazards.md R143). -/
abbrev Params.WF (p : Params) : Prop := p.profile.WF ∧ p.profile.kind = p.layout

/-- The parameters of an instance of a layout with its default profile (R6). -/
def Params.default (layout : Layout) (policy : ViolationPolicy) : Params where
  layout := layout
  profile := match layout with
    | .a => profileA
    | .b => profileB
  policy := policy

end Sys2Proof
end

