-- ==== Sys2Proof/WellFormed.lean ====
section
/-! DEFINITION. Which instructions a profile can spell: each operand fits its field, the class is the one the
constructor names, and the uncovered bits lie outside every field. -/

namespace Sys2Proof

/-- The message type of a rejected class is one its row of the opcode map has (spec/30_encoding.md R56): 0x1 to 0xE for
INVALID_METADATA_TYPE, 0x1 to 0xF for INVALID_DATA_TYPE. -/
def Instr.typeCodeOk : Instr → Bool
  | .invalidMetadataType code _ _ _ => decide (code ≠ 0 ∧ code ≠ 15)
  | .invalidDataType code _ _ _ => decide (code ≠ 0)
  | _ => true

/-- The instruction is well-formed under the profile: its layout is the profile's kind; its type code is of its class;
its sequence number fits the field; its checksum fits the checksum field (spec/40_frame_codec.md R73); and its ignored
bits lie in no field (R46, R54). -/
def Instr.wellFormed (P : Profile) (i : Instr) : Bool :=
  decide (i.layout = P.kind) && i.typeCodeOk && decide (i.seq.toNat < 2 ^ P.width .sequenceNumber) &&
    decide ((i.checksum P).toNat < 2 ^ P.width P.csum) && decide (i.ignored &&& P.mask = 0)

end Sys2Proof
end

