-- ==== Sys2Proof/Decode.lean ====
section
/-! DEFINITION. The frame codec (spec/40_frame_codec.md): the decoder, total on every 32-bit sample and rejecting by
name, then the encoder of spec/30_encoding.md R64, R65 and the frame sequences of R66. -/

namespace Sys2Proof

/-- The accepted frames (R67). -/
inductive Frame where
  | declareLength (len : Byte)
  | endOfMessage
  | dataByte (value : Byte)
  | keyRecord (rec : KeyRecord)
deriving DecidableEq, Repr

/-- The rejections of the codec (R67). -/
inductive CodecError where
  | checksumMismatch
  | invalidMetadataType
  | invalidDataType
deriving DecidableEq, Repr

/-- Why a sample is no instruction: its checksum does not match (R73, R74). Every other sample is one. -/
inductive DecodeError where
  | checksumMismatch
deriving DecidableEq, Repr

/-- The bits of a sample that no field of the profile covers (R46, R54). -/
def Profile.uncovered (P : Profile) (raw : Word) : Word := raw &&& ~~~P.mask

/-- The class of a checksum-valid sample with its operands (R56, R57, R75 to R80). -/
def classify (P : Profile) (raw : Word) : Instr :=
  let seq := P.read raw .sequenceNumber
  let rest := P.uncovered raw
  let payload := (P.read raw .payload).setWidth 8
  let code := P.read raw .messageType
  match P.kind with
  | .b =>
    .key ((P.read raw .keyCode).setWidth 8) (decide (P.read raw .isVirtualKey = 1)) (decide (P.read raw .ctrl = 1))
      (decide (P.read raw .alt = 1)) (decide (P.read raw .shift = 1)) (decide (P.read raw .win = 1)) seq rest
  | .a =>
    if P.read raw .isMetadata = 1 then
      if code = 0 then .decl payload seq rest
      else if code = 15 then .eom payload seq rest
      else .invalidMetadataType (code.setWidth 4) payload seq rest
    else if code = 0 then .data payload seq rest
    else .invalidDataType (code.setWidth 4) payload seq rest

/-- The decoder: the checksum first, then the class (R73, R74, R82). -/
def decode (P : Profile) (raw : Word) : Except DecodeError Instr :=
  if checksumValid P raw then .ok (classify P raw) else .error .checksumMismatch

/-- The codec's result for an instruction: the accepted frame, or the rejection its class is (R75 to R80). -/
def Instr.frame : Instr → Except CodecError Frame
  | .decl len _ _ => .ok (.declareLength len)
  | .eom _ _ _ => .ok .endOfMessage
  | .data value _ _ => .ok (.dataByte value)
  | .invalidMetadataType _ _ _ _ => .error .invalidMetadataType
  | .invalidDataType _ _ _ _ => .error .invalidDataType
  | .key code vk ctrl alt shift win _ _ => .ok (.keyRecord ⟨code, vk, ctrl, alt, shift, win⟩)

/-- A field of an instruction placed in its bits. -/
def FieldSpec.place (F : FieldSpec) (v : Word) : Word := v <<< F.lsb

/-- The sample that spells an instruction: every field in its place, the checksum filled in, the uncovered bits as the
instruction gives them (R64, R65 for the default profiles; the same for any profile of R54). -/
def encode (P : Profile) (i : Instr) : Word :=
  P.fields.foldr (fun F w => F.place (i.fieldValue P F.name) ||| w) i.ignored

/-- The sample the opcode table's bits stand for: the low `nbits` bits of `w`, every higher bit zero. A sample is one
integer, handed over whole, so it has no byte order (spec/20_memory.md R33). -/
def tableWord (nbits w : Nat) : Word := BitVec.ofNat 32 (w % 2 ^ nbits)

/-- The instruction the decoder reads from the bits of an opcode-table row. The table holds the rows of both layouts
and a word does not say which it is for: it is read under `PROFILE_A`, and where that refuses it under `PROFILE_B`
(log 9). -/
def decodeTableWord (nbits w : Nat) : Option Instr :=
  match decode profileA (tableWord nbits w) with
  | .ok i => some i
  | .error _ => (decode profileB (tableWord nbits w)).toOption

/-! The frame sequences of spec/30_encoding.md R63, R66. They only write sequences of samples; they are no hardware. -/

/-- The `n` DATA frames of a text, sequence numbers counting on from `seq` modulo 16 (R66). -/
def dataFrames : List Byte → Nat → List Instr
  | [], _ => []
  | b :: bs, seq => .data b (BitVec.ofNat 32 (seq % 16)) 0 :: dataFrames bs (seq + 1)

/-- `MSG`: a declaration of the text's length, then its DATA frames (R66). -/
def msgFrames (text : List Byte) (seq : Nat) : List Instr :=
  .decl (BitVec.ofNat 8 text.length) (BitVec.ofNat 32 (seq % 16)) 0 :: dataFrames text (seq + 1)

/-- `MSGT`: a declaration of an upper bound, the DATA frames, then EOM (R66). -/
def msgtFrames (text : List Byte) (cap : Byte) (seq : Nat) : List Instr :=
  .decl cap (BitVec.ofNat 32 (seq % 16)) 0 ::
    (dataFrames text (seq + 1) ++ [.eom 0 (BitVec.ofNat 32 ((seq + 1 + text.length) % 16)) 0])

end Sys2Proof
end

