-- ==== Sys2Proof/Machine/State.lean ====
section
/-! DEFINITION. The state of the block (spec/10_state.md R11) with the model's own fields beside it, the result record
(spec/42_transaction.md R107), and the reasons a step can stop. -/

namespace Sys2Proof.Machine

/-- `st`: the outcome of a step (R107, spec/60_exceptions.md R120). Codes 5 to 7 are never produced. -/
inductive Status where
  | ok
  | checksumMismatch
  | invalidMetadataType
  | invalidDataType
  | halted
deriving DecidableEq, Repr

/-- `kind`: the accepted frame's class; meaningful only with `st = OK`, and code 0 (`decl`) otherwise (R107). -/
inductive Kind where
  | decl
  | eom
  | data
  | key
deriving DecidableEq, Repr

/-- `acc`: what the reassembler did (R107). -/
inductive Acc where
  | none
  | declared
  | appended
  | ignored
  | completed
  | terminated
deriving DecidableEq, Repr

/-- The result record of one step, field by field (R107). -/
structure Report where
  st : Status
  kind : Kind
  acc : Acc
  frame24 : FrameBits
  computed : Byte
  msg : Option (List Byte)
  key : Option KeyRecord
  viol : Bool
  halt : Bool
deriving DecidableEq, Repr

/-- The levels of the block's input ports at one moment it samples them (R115). -/
structure InPorts where
  inValid : Bool
  inData : Word
  rst : Bool
deriving DecidableEq, Repr

/-- A byte memory: the (index, byte) pairs that differ from what an unlisted index reads as. -/
abbrev Memory := List Host.Cell

/-- The state. `cap`, `len`, `buf`, `viol`, `halt` are the spec's five (spec/10_state.md R11); `params`, `inputs`,
`result` and `tick` are the model's own (log 1, 4, 6, 7). -/
structure State where
  /-- `CAP` (R13). -/
  cap : Byte
  /-- `LEN` (R14). -/
  len : Byte
  /-- `BUF`, indices 0 to 254 (R15). -/
  buf : Memory
  /-- `VIOL` (R19). -/
  viol : Bool
  /-- `HALT` (R20). -/
  halt : Bool
  /-- The parameters of this instance (spec/00_scope.md R6); no step writes them. -/
  params : Params
  /-- What the host drives on the input ports, the next moment first. -/
  inputs : List InPorts
  /-- The result record the last step presents (R107, R116). -/
  result : Option Report
  /-- Counts model steps; only the free values of undriven ports read it. -/
  tick : Nat
deriving DecidableEq, Repr

/-- Why the machine stops with a fault. -/
inductive Fault where
  /-- Raised by the BUF operations of Machine/Ops.lean for an index that does not exist: "index 255 does not exist"
  (spec/20_memory.md R30). Safe: the hardware has no such access, and no state of the model reaches one (log 10). -/
  | bufIndexAbsent (i : Nat)
deriving DecidableEq, Repr

/-- Why the machine refuses a step. -/
inductive Refusal where
  /-- An arm of exec that has no meaning yet (none is left). Safe. -/
  | notModelled (mnemonic : String)
  /-- Raised by the step for parameters that are no instance: "a model refuses an ill-formed one (it has no step)"
  (spec/30_encoding.md R54, W1 to W6; R143). Safe (log 11). -/
  | illFormedInstance
  /-- Raised by State.configure when the host asks a running block for other parameters: "None of these may change while
  the block runs" (spec/70_reset_and_hazards.md R143; spec/93_implementation_defined.md U13, `refuse`). Safe (log 14). -/
  | parametersChanged
deriving DecidableEq, Repr

/-- What an index of BUF that is not listed reads as (DESIGN CHOICE, log 3): R24 leaves it unspecified. -/
abbrev unlistedByte : Byte := 0

/-- The canonical form of BUF: indices strictly rising and below `BUF_DEPTH`, no entry equal to an unlisted byte. -/
abbrev Memory.wf (m : Memory) : Prop :=
  (m.map Prod.fst).Pairwise (· < ·) ∧ ∀ c ∈ m, c.1 < bufDepth ∧ c.2 ≠ unlistedByte

/-- The parameters State.reset has (DESIGN CHOICE, log 1): the spec leaves `LAYOUT` and `VIOLATION_POLICY` open. -/
def defaultParams : Params := ⟨.a, profileA, .halt⟩

/-- The machine right after reset (spec/10_state.md R24, spec/70_reset_and_hazards.md R140), for any parameters. -/
def State.resetWith (p : Params) : State where
  cap := 0
  len := 0
  buf := []
  viol := false
  halt := false
  params := p
  inputs := []
  result := none
  tick := 0

/-- The machine right after reset, with the model's default parameters. -/
def State.reset : State := State.resetWith defaultParams

end Sys2Proof.Machine
end

