-- ==== Sys2Proof/Machine/Flags.lean ====
section
/-! DEFINITION. The two flags of the block, `VIOL` and `HALT`, and the numeric codes of the status values a step
reports. The block has no condition codes (spec/10_state.md R21). -/

namespace Sys2Proof.Machine

/-- `HALT` after a protocol violation: set when the policy is `halt`, unchanged otherwise (R20, R106, R110). -/
def haltAfterViolation (policy : ViolationPolicy) (halt : Bool) : Bool :=
  match policy with
  | .halt => true
  | .skip => halt

/-- The flag writes of a protocol violation: `VIOL <- 1`, and `HALT <- 1` under `halt` (R106, R110). -/
def State.setViolation (s : State) : State :=
  { s with viol := true, halt := haltAfterViolation s.params.policy s.halt }

/-- The codes of `st` (R107, R120). -/
def Status.code : Status → BitVec 3
  | .ok => 0
  | .checksumMismatch => 1
  | .invalidMetadataType => 2
  | .invalidDataType => 3
  | .halted => 4

/-- The codes of `kind` (R107). -/
def Kind.code : Kind → BitVec 2
  | .decl => 0
  | .eom => 1
  | .data => 2
  | .key => 3

/-- The codes of `acc` (R107). -/
def Acc.code : Acc → BitVec 3
  | .none => 0
  | .declared => 1
  | .appended => 2
  | .ignored => 3
  | .completed => 4
  | .terminated => 5

end Sys2Proof.Machine
end

