-- ==== Sys2Proof/Machine/Ops.lean ====
section
/-! DEFINITION. The named operations of the block: reading and writing BUF, collecting a message, presenting a result
record, reporting a protocol violation (the block's whole "trap entry", spec/60_exceptions.md R126) and reset, the only
way back from one (R128). -/

namespace Sys2Proof.Machine

/-- The byte at an index of a memory. -/
def Memory.read : Memory → Nat → Byte
  | [], _ => unlistedByte
  | (a, b) :: m, i => if a = i then b else Memory.read m i

/-- Removes what a memory lists for an index. -/
def Memory.erase (m : Memory) (i : Nat) : Memory := m.filter (fun c => decide (c.1 ≠ i))

/-- Lists a byte at an index a memory does not list, keeping the indices rising. -/
def Memory.insert : Memory → Nat → Byte → Memory
  | [], i, v => [(i, v)]
  | (a, b) :: m, i, v => if i < a then (i, v) :: (a, b) :: m else (a, b) :: Memory.insert m i v

/-- The memory with one byte changed, in canonical form: a byte equal to an unlisted one is not listed. -/
def Memory.write (m : Memory) (i : Nat) (v : Byte) : Memory :=
  if v = unlistedByte then m.erase i else (m.erase i).insert i v

/-- `BufRead(i)` (spec/00_scope.md R9): only the indices 0 to 254 exist (spec/20_memory.md R30). -/
def bufRead (m : Memory) (i : Nat) : Except Fault Byte :=
  if i < bufDepth then .ok (m.read i) else .error (.bufIndexAbsent i)

/-- `BufWrite(i, v)` (spec/00_scope.md R9), one byte at an index that exists (spec/20_memory.md R30). -/
def bufWrite (m : Memory) (i : Nat) (v : Byte) : Except Fault Memory :=
  if i < bufDepth then .ok (m.write i v) else .error (.bufIndexAbsent i)

/-- `[BufRead(0), ..., BufRead(n - 1)]`, in index order (spec/20_memory.md R30, R34). -/
def bufBytes (m : Memory) : Nat → Except Fault (List Byte)
  | 0 => .ok []
  | n + 1 =>
    match bufBytes m n with
    | .error f => .error f
    | .ok bs =>
      match bufRead m n with
      | .error f => .error f
      | .ok b => .ok (bs ++ [b])

/-- Presents the step's result record; `viol` and `halt` are the flags' values after the step (R106, R107). -/
def State.present (s : State) (st : Status) (kind : Kind) (acc : Acc) (frame24 : FrameBits) (computed : Byte)
    (msg : Option (List Byte)) (key : Option KeyRecord) : State :=
  { s with result := some ⟨st, kind, acc, frame24, computed, msg, key, s.viol, s.halt⟩ }

/-- The bits 23 to 0 of the sample that spells the instruction (`frame24` of R107). -/
def frameBits (P : Profile) (i : Instr) : FrameBits := (encode P i).setWidth 24

/-- The end of every accepted step: `st = OK` with the frame's class and bits, the computed checksum, and what was
emitted (R106, R113). -/
def State.accept (s : State) (i : Instr) (kind : Kind) (acc : Acc) (msg : Option (List Byte))
    (key : Option KeyRecord) : State :=
  s.present .ok kind acc (frameBits s.params.profile i) (i.checksum s.params.profile) msg key

/-- Reporting a protocol violation (R110, R126): the flags are written, CAP, LEN and BUF are not, nothing is emitted,
and the result carries the code and the sample's bits. -/
def State.raiseViolation (s : State) (st : Status) (i : Instr) : State :=
  s.setViolation.present st .decl .none (frameBits s.params.profile i) (i.checksum s.params.profile) none none

/-- Reset (spec/70_reset_and_hazards.md R138, R140): the registers and flags cleared, a partly gathered message
discarded, no result record, the parameters kept. BUF is unspecified after it; the model lists nothing (log 3). -/
def State.applyReset (s : State) : State :=
  { s with cap := 0, len := 0, buf := [], viol := false, halt := false, result := none }

end Sys2Proof.Machine
end

