-- ==== Sys2Proof/Machine/KeyEvent.lean ====
section
/-! DEFINITION. The Layout B class: KEY (spec/40_frame_codec.md R80; spec/42_transaction.md R112). -/

namespace Sys2Proof.Machine

/-- KEY (R112): the key record is emitted in this step and no state changes. -/
def execKey (code : Byte) (isVirtualKey ctrl alt shift win : Bool) (seq ignored : Word) (s : State) :
    Host.Outcome State Fault Refusal :=
  .next (s.accept (.key code isVirtualKey ctrl alt shift win seq ignored) .key .none none
    (some ⟨code, isVirtualKey, ctrl, alt, shift, win⟩))

end Sys2Proof.Machine
end

