-- ==== Sys2Proof/Machine/Reassembler.lean ====
section
/-! DEFINITION. The Layout A frames the reassembler accepts: DECL, DATA, EOM (spec/41_reassembler.md R91 to R95). -/

namespace Sys2Proof.Machine

/-- DECL (R91): `CAP <- len; LEN <- 0`; any bytes gathered so far become unreadable; no message. -/
def execDecl (len : Byte) (seq ignored : Word) (s : State) : Host.Outcome State Fault Refusal :=
  .next (({ s with cap := len, len := 0 } : State).accept (.decl len seq ignored) .decl .declared none none)

/-- EOM (R94): emits the `LEN` bytes gathered so far, then `CAP <- 0; LEN <- 0`. -/
def execEom (pad : Byte) (seq ignored : Word) (s : State) : Host.Outcome State Fault Refusal :=
  match bufBytes s.buf s.len.toNat with
  | .error f => .fault f
  | .ok msg =>
    .next (({ s with cap := 0, len := 0 } : State).accept (.eom pad seq ignored) .eom .terminated (some msg) none)

/-- DATA: ignored when `LEN >= CAP` (R92); else appended at index `LEN`, and when that fills the declared length the
message is emitted and `CAP <- 0; LEN <- 0` (R93). -/
def execData (value : Byte) (seq ignored : Word) (s : State) : Host.Outcome State Fault Refusal :=
  if s.cap.toNat ≤ s.len.toNat then .next (s.accept (.data value seq ignored) .data .ignored none none)
  else
    match bufWrite s.buf s.len.toNat value with
    | .error f => .fault f
    | .ok m =>
      if s.len.toNat + 1 = s.cap.toNat then
        match bufBytes m (s.len.toNat + 1) with
        | .error f => .fault f
        | .ok msg =>
          .next (({ s with buf := m, cap := 0, len := 0 } : State).accept (.data value seq ignored) .data .completed
            (some msg) none)
      else
        .next (({ s with buf := m, len := s.len + 1 } : State).accept (.data value seq ignored) .data .appended none
          none)

end Sys2Proof.Machine
end

