-- ==== Sys2Proof/Machine/Violation.lean ====
section
/-! DEFINITION. The two rejected Layout A classes (spec/40_frame_codec.md R78, R79; spec/42_transaction.md R110). -/

namespace Sys2Proof.Machine

/-- INVALID_METADATA_TYPE (R78, R110, R122). -/
def execInvalidMetadataType (code : BitVec 4) (payload : Byte) (seq ignored : Word) (s : State) :
    Host.Outcome State Fault Refusal :=
  .next (s.raiseViolation .invalidMetadataType (.invalidMetadataType code payload seq ignored))

/-- INVALID_DATA_TYPE (R79, R110, R123). -/
def execInvalidDataType (code : BitVec 4) (payload : Byte) (seq ignored : Word) (s : State) :
    Host.Outcome State Fault Refusal :=
  .next (s.raiseViolation .invalidDataType (.invalidDataType code payload seq ignored))

end Sys2Proof.Machine
end

