-- ==== Sys2Proof/Machine/Dispatch.lean ====
section
/-! DEFINITION. One arm per row of spec/opcode_table.json. -/

namespace Sys2Proof.Machine

def exec (i : Instr) (s : State) : Host.Outcome State Fault Refusal :=
  match i with
  | .decl len seq ignored => Sys2Proof.Machine.execDecl len seq ignored s
  | .eom pad seq ignored => Sys2Proof.Machine.execEom pad seq ignored s
  | .data value seq ignored => Sys2Proof.Machine.execData value seq ignored s
  | .invalidMetadataType code payload seq ignored => Sys2Proof.Machine.execInvalidMetadataType code payload seq ignored s
  | .invalidDataType code payload seq ignored => Sys2Proof.Machine.execInvalidDataType code payload seq ignored s
  | .key code isVirtualKey ctrl alt shift win seq ignored => Sys2Proof.Machine.execKey code isVirtualKey ctrl alt shift win seq ignored s

end Sys2Proof.Machine
end

