-- ==== Sys2Proof/Machine/Transaction.lean ====
section
/-! DEFINITION. The sample transaction (spec/42_transaction.md R105, R106): what the block does with one delivered
sample, and what one moment of the input ports makes it do (R115; spec/70_reset_and_hazards.md R138 to R142). -/

namespace Sys2Proof.Machine

/-- A sample while `HALT = 1` (R111): consumed without being decoded, `computed = 0`, no state change. -/
def State.haltedReport (s : State) (raw : Word) : State :=
  s.present .halted .decl .none (raw.setWidth 24) 0 none none

/-- A sample whose checksum does not match (R109): dropped, no state change. -/
def State.dropReport (s : State) (raw : Word) : State :=
  s.present .checksumMismatch .decl .none (raw.setWidth 24) (computed s.params.profile raw) none none

/-- The step for one delivered sample, in the order of R125: halted, checksum mismatch, then what its class does. -/
def sampleStep (raw : Word) (s : State) : Host.Outcome State Fault Refusal :=
  if s.halt then .next (s.haltedReport raw)
  else
    match decode s.params.profile raw with
    | .error .checksumMismatch => .next (s.dropReport raw)
    | .ok i => exec i s

/-- A moment with no sample and no reset: the block holds its state (spec/60_exceptions.md R137); the result of the
step before is no longer presented (R116; log 6). -/
def State.wait (s : State) : State := { s with result := none }

/-- The block at one moment of its input ports: reset comes before a sample offered with it, which is not taken
(`in_ready = 0` during reset, spec/70_reset_and_hazards.md R139). -/
def onPorts (p : InPorts) (s : State) : Host.Outcome State Fault Refusal :=
  if p.rst then .next s.applyReset
  else if p.inValid then sampleStep p.inData s
  else .next s.wait

/-- The state after the block has looked at its ports: one moment consumed, one tick on. -/
def State.tookInput (s : State) (rest : List InPorts) : State := { s with inputs := rest, tick := s.tick + 1 }

/-- One step of the model: the next moment of the input ports; when the host drives nothing more the block waits
(spec/70_reset_and_hazards.md R142). An ill-formed instance has no step (spec/30_encoding.md R54). -/
def advance (s : State) : Host.Outcome State Fault Refusal :=
  if s.params.WF then
    match s.inputs with
    | [] => .next (s.tookInput []).wait
    | p :: rest => onPorts p (s.tookInput rest)
  else .refused .illFormedInstance

/-- The port levels of a host that delivers a sample. -/
def InPorts.deliver (raw : Word) : InPorts := ⟨true, raw, false⟩

/-- The host delivers a sample to the running block: it stands on the ports at the next moment, nothing else changes. -/
def State.offer (s : State) (raw : Word) : State := { s with inputs := InPorts.deliver raw :: s.inputs }

/-- The host asks for other parameters while the block runs: "None of these may change while the block runs"
(spec/70_reset_and_hazards.md R143), treated as "refuse" (spec/93_implementation_defined.md U13; log 14). The
parameters the block has are no change. -/
def State.configure (s : State) (p : Params) : Host.Outcome State Fault Refusal :=
  if p = s.params then .next s else .refused .parametersChanged

/-- "a change is a new instance" (R143): the state right after the reset of an instance with these parameters, which is
how every run starts (R141). It takes nothing over from the old instance but the host's side of the ports and the
model's own tick (log 14). -/
def State.newInstance (s : State) (p : Params) : State :=
  { State.resetWith p with inputs := s.inputs, tick := s.tick }

/-- The running block would take the sample as this instruction. -/
abbrev State.runs (s : State) (raw : Word) (i : Instr) : Prop :=
  s.params.WF ∧ s.halt = false ∧ decode s.params.profile raw = .ok i

/-- A block that takes the sample as this instruction: the running one if it would, else a new instance of the
instruction's layout with its default profile and the same policy (log 9). -/
def State.instanceFor (s : State) (raw : Word) (i : Instr) : State :=
  if s.runs raw i then s else s.newInstance (Params.default i.layout s.params.policy)

/-- The opcode-table word delivered as the next sample: to a block that takes it as the instruction the word stands for,
or, where it stands for none, to the block as it runs (log 4, log 9). -/
def State.offerTableWord (s : State) (nbits w : Nat) : State :=
  match decodeTableWord nbits w with
  | some i => (s.instanceFor (tableWord nbits w) i).offer (tableWord nbits w)
  | none => s.offer (tableWord nbits w)

end Sys2Proof.Machine
end

