-- ==== Sys2Proof/Machine/Ports.lean ====
section
/-! DEFINITION. The output ports at the transaction level (spec/42_transaction.md R115 to R117), read off the state. -/

namespace Sys2Proof.Machine

/-- The key flags packed: bit 4 `is_virtual_key`, bit 3 `ctrl`, bit 2 `alt`, bit 1 `shift`, bit 0 `win` (R115). -/
def keyFlags (k : KeyRecord) : BitVec 5 :=
  BitVec.ofBool k.isVirtualKey ++ BitVec.ofBool k.ctrl ++ BitVec.ofBool k.alt ++ BitVec.ofBool k.shift ++
    BitVec.ofBool k.win

/-- The output ports of R115. -/
structure OutPorts where
  inReady : Bool
  outValid : Bool
  outSt : BitVec 3
  outKind : BitVec 2
  outAcc : BitVec 3
  outFrame24 : FrameBits
  outComputed : Byte
  outMsgValid : Bool
  outMsgLen : Byte
  outMsgData : List Byte
  outKeyValid : Bool
  outKeyCode : Byte
  outKeyFlags : BitVec 5
  viol : Bool
  halt : Bool
deriving DecidableEq, Repr

/-- `in_ready`: low during reset (spec/70_reset_and_hazards.md R139). Other stalls are timing, left out (log 5). -/
def State.inReady (s : State) : Bool :=
  match s.inputs with
  | [] => true
  | p :: _ => !p.rst

/-- The message bytes on the lanes: byte `i` for `i < out_msg_len`; the other lanes carry no value (R115, U10). -/
def State.msgLane (s : State) (msg : List Byte) (i : Nat) : Byte :=
  match msg[i]? with
  | some b => b
  | none => Config.undriven 8 s.tick (16 + i)

/-- The message of the presented result, if any. -/
def State.msg (s : State) : Option (List Byte) := s.result.bind Report.msg

/-- The key record of the presented result, if any. -/
def State.key (s : State) : Option KeyRecord := s.result.bind Report.key

/-- The levels of the output ports. A lane that carries no value has a free one (log 7; U10, U11). -/
def State.outPorts (s : State) : OutPorts where
  inReady := s.inReady
  outValid := s.result.isSome
  outSt := (s.result.map fun r => r.st.code).getD (Config.undriven 3 s.tick 0)
  outKind := (s.result.map fun r => r.kind.code).getD (Config.undriven 2 s.tick 1)
  outAcc := (s.result.map fun r => r.acc.code).getD (Config.undriven 3 s.tick 2)
  outFrame24 := (s.result.map Report.frame24).getD (Config.undriven 24 s.tick 3)
  outComputed := (s.result.map Report.computed).getD (Config.undriven 8 s.tick 4)
  outMsgValid := s.msg.isSome
  outMsgLen := (s.msg.map fun m => BitVec.ofNat 8 m.length).getD (Config.undriven 8 s.tick 5)
  outMsgData := (List.range bufDepth).map (s.msgLane (s.msg.getD []))
  outKeyValid := s.key.isSome
  outKeyCode := (s.key.map KeyRecord.keyCode).getD (Config.undriven 8 s.tick 6)
  outKeyFlags := (s.key.map keyFlags).getD (Config.undriven 5 s.tick 7)
  viol := s.viol
  halt := s.halt

end Sys2Proof.Machine
end

