-- ==== Sys2Proof/Machine/Reference.lean ====
section
/-! DEFINITION. The rules' own pseudocode in the list form of spec/10_state.md R25: the whole codec (spec/40_frame_codec.md
R82), the whole reassembler (spec/41_reassembler.md R95) and the step in full (spec/42_transaction.md R106). The machine
does not call it; statements compare the machine with it. -/

namespace Sys2Proof.Machine

/-- The state as R25 writes it. -/
structure ListState where
  cap : Byte
  buf : List Byte
  viol : Bool
  halt : Bool
deriving DecidableEq, Repr

/-- `decode(raw, P)` as R82 writes it. -/
def decodeFrame (P : Profile) (raw : Word) : Except CodecError Frame :=
  let v := P.read raw
  let computedByte := BitVec.ofNat 8 ((checksumSum P v).toNat / P.divisor)
  if computedByte.setWidth 32 ≠ v P.csum then .error .checksumMismatch
  else
    match P.kind with
    | .b =>
      .ok (.keyRecord
        ⟨(v .keyCode).setWidth 8, v .isVirtualKey == 1, v .ctrl == 1, v .alt == 1, v .shift == 1, v .win == 1⟩)
    | .a =>
      if v .isMetadata = 1 then
        if v .messageType = 0x0 then .ok (.declareLength ((v .payload).setWidth 8))
        else if v .messageType = 0xF then .ok .endOfMessage
        else .error .invalidMetadataType
      else if v .messageType = 0x0 then .ok (.dataByte ((v .payload).setWidth 8))
      else .error .invalidDataType

/-- `accept(frame)` as R95 writes it in list form, with the branch it takes (R107) and what it emits. A key record
never reaches it (R86). -/
def listAccept (f : Frame) (s : ListState) : ListState × Acc × Option (List Byte) :=
  match f with
  | .declareLength len => ({ s with cap := len, buf := [] }, .declared, none)
  | .dataByte v =>
    if s.buf.length ≥ s.cap.toNat then (s, .ignored, none)
    else if s.buf.length + 1 = s.cap.toNat then ({ s with cap := 0, buf := [] }, .completed, some (s.buf ++ [v]))
    else ({ s with buf := s.buf ++ [v] }, .appended, none)
  | .endOfMessage => ({ s with cap := 0, buf := [] }, .terminated, some s.buf)
  | .keyRecord _ => (s, .none, none)

/-- `kind` of an accepted frame (R107). -/
def Frame.kind : Frame → Kind
  | .declareLength _ => .decl
  | .endOfMessage => .eom
  | .dataByte _ => .data
  | .keyRecord _ => .key

/-- The step in full as R106 writes it: the next state and the result record. -/
def listStep (p : Params) (s : ListState) (raw : Word) : ListState × Report :=
  let frame24 : FrameBits := raw.setWidth 24
  if s.halt then (s, ⟨.halted, .decl, .none, frame24, 0, none, none, s.viol, s.halt⟩)
  else
    let c := computed p.profile raw
    match decodeFrame p.profile raw with
    | .error .checksumMismatch => (s, ⟨.checksumMismatch, .decl, .none, frame24, c, none, none, s.viol, s.halt⟩)
    | .error .invalidMetadataType =>
      let t := { s with viol := true, halt := if p.policy = .halt then true else s.halt }
      (t, ⟨.invalidMetadataType, .decl, .none, frame24, c, none, none, t.viol, t.halt⟩)
    | .error .invalidDataType =>
      let t := { s with viol := true, halt := if p.policy = .halt then true else s.halt }
      (t, ⟨.invalidDataType, .decl, .none, frame24, c, none, none, t.viol, t.halt⟩)
    | .ok (.keyRecord k) => (s, ⟨.ok, .key, .none, frame24, c, none, some k, s.viol, s.halt⟩)
    | .ok f =>
      let (t, acc, msg) := listAccept f s
      (t, ⟨.ok, Frame.kind f, acc, frame24, c, msg, none, t.viol, t.halt⟩)

/-- The state of the block as R25 represents it: `buf.length = LEN` and `buf[i] = BUF[i]` for `i < LEN`. -/
def State.view (s : State) : ListState :=
  ⟨s.cap, (List.range s.len.toNat).map s.buf.read, s.viol, s.halt⟩

end Sys2Proof.Machine
end

