-- ==== Sys2Proof/Safety.lean ====
section
/-! DEFINITION. What the statements are written in: the invariant of a running block, the phases of the reassembler,
agreement of two states on what the block can read, and running a list of samples. -/

namespace Sys2Proof.Machine

/-- The two phases of the reassembler, read off its registers (spec/41_reassembler.md R89). -/
abbrev State.idle (s : State) : Prop := s.cap = 0 ∧ s.len = 0

/-- Phase ACCUM (R89). -/
abbrev State.accum (s : State) : Prop := s.len < s.cap

/-- "`LEN < CAP or (CAP = 0 and LEN = 0)`" (spec/10_state.md R16). -/
abbrev State.phaseOk (s : State) : Prop := s.accum ∨ s.idle

/-- What R107 and R108 say of one result record, with the flags of the state that presents it. -/
structure Report.Ok (r : Report) (s : State) : Prop where
  rejected : r.st ≠ .ok → r.kind = .decl ∧ r.acc = .none ∧ r.msg = none ∧ r.key = none
  oneOutput : r.msg = none ∨ r.key = none
  msgLength : ∀ m, r.msg = some m → m.length ≤ bufDepth
  viol : r.viol = s.viol
  halt : r.halt = s.halt

/-- The invariant of a running block. The clause `buf` and the `s.buf = []` of `layoutB` are about the model's own form
of BUF and what reset lists in it (log 3); `report` is about the result the model holds (log 6). -/
structure State.Inv (s : State) : Prop where
  params : s.params.WF
  phase : s.phaseOk
  buf : s.buf.wf
  haltViol : s.halt = true → s.viol = true
  haltPolicy : s.halt = true → s.params.policy = .halt
  layoutB : s.params.layout = .b → s.cap = 0 ∧ s.len = 0 ∧ s.buf = [] ∧ s.viol = false ∧ s.halt = false
  report : ∀ r, s.result = some r → r.Ok s

/-- The host delivers the sample at the next moment of the ports, and the block can take it: the instance is
well-formed, reset is not asserted, `in_valid = 1` (spec/42_transaction.md R115). -/
structure State.Offered (s : State) (raw : Word) (rest : List InPorts) : Prop where
  params : s.params.WF
  inputs : s.inputs = InPorts.deliver raw :: rest

/-- The record of an accepted instruction (R107, R113): its class and what the reassembler did and emitted, the bits 23
to 0 of the sample that spells it, its checksum, and the flags as they stand. -/
def State.okReport (s : State) (i : Instr) (kind : Kind) (acc : Acc) (msg : Option (List Byte))
    (key : Option KeyRecord) : Report where
  st := .ok
  kind := kind
  acc := acc
  frame24 := (encode s.params.profile i).setWidth 24
  computed := i.checksum s.params.profile
  msg := msg
  key := key
  viol := s.viol
  halt := s.halt

/-- `HALT` after a protocol violation (R110): set under the policy `halt`, as it was under `skip`. -/
def State.haltAfter (s : State) : Bool := if s.params.policy = .halt then true else s.halt

/-- The record of a protocol violation (R107, R110): its code, the sample's bits and its computed checksum, nothing
emitted, `viol = 1`, and `halt` as the policy leaves it. -/
def State.violationReport (s : State) (st : Status) (i : Instr) : Report where
  st := st
  kind := .decl
  acc := .none
  frame24 := (encode s.params.profile i).setWidth 24
  computed := i.checksum s.params.profile
  msg := none
  key := none
  viol := true
  halt := s.haltAfter

/-- The bytes 0 to `LEN - 1` of BUF, in index order (R34). -/
def State.gathered (s : State) : List Byte := (List.range s.len.toNat).map s.buf.read

/-- The codec rejects the sample with a protocol violation, and the block is not halted (R110, R111). -/
def State.Violates (s : State) (raw : Word) : Prop :=
  s.halt = false ∧
    (decodeFrame s.params.profile raw = .error .invalidMetadataType ∨
      decodeFrame s.params.profile raw = .error .invalidDataType)

/-- The moment of the ports the next step looks at does not assert reset. -/
def State.NoReset (s : State) : Prop := ∀ p rest, s.inputs = p :: rest → p.rst = false

/-- Two states agree on everything a step can read: not on the bytes of BUF at and above `LEN` (R15, R25), not on what
the step before presented (R21), not on the tick. -/
structure State.Agree (s t : State) : Prop where
  cap : s.cap = t.cap
  len : s.len = t.len
  buf : ∀ i, i < s.len.toNat → s.buf.read i = t.buf.read i
  viol : s.viol = t.viol
  halt : s.halt = t.halt
  params : s.params = t.params
  inputs : s.inputs = t.inputs

/-- Two outcomes that no rule tells apart (R25). -/
def OutcomeAgree : Host.Outcome State Fault Refusal → Host.Outcome State Fault Refusal → Prop
  | .next s, .next t => s.Agree t ∧ s.result = t.result
  | .fault f, .fault g => f = g
  | .refused r, .refused q => r = q
  | _, _ => False

/-- Runs a list of samples, one step each, and collects what each step presents (R39, R118); none when a step stops. -/
def deliverAll : List Word → State → Option (State × List Report)
  | [], s => some (s, [])
  | raw :: raws, s =>
    match sampleStep raw s with
    | .next t =>
      match t.result, deliverAll raws t with
      | some r, some (u, rs) => some (u, r :: rs)
      | _, _ => none
    | _ => none

/-- The messages of a list of result records, in order (spec/20_memory.md R39). -/
def messages (rs : List Report) : List (List Byte) := rs.filterMap Report.msg

/-- No two neighbours are equal: what the host's duplicate filter lets through (spec/20_memory.md R41). -/
def NeighboursDiffer (ws : List Word) : Prop := ws.IsChain (· ≠ ·)

end Sys2Proof.Machine
end

