-- ==== Sys2Proof/Certificates/Slice0/Obligations.lean ====
section
/-! DEFINITION. The statements about the block, each with the rule of spec/ it formalises. -/

open Sys2Proof Sys2Proof.Machine

/-! ### The codec and the encoder -/

/-- R82: the decoder of the machine is the pseudocode of the whole codec. -/
def Obligations.DecoderIsTheWholeCodec : Prop :=
  ∀ (P : Profile) (raw : Word),
    decodeFrame P raw =
      match decode P raw with
      | .error .checksumMismatch => .error .checksumMismatch
      | .ok i => i.frame

/-- R73, R74: the checksum decides first; a sample is rejected with ChecksumMismatch exactly when its computed
checksum differs from its checksum field. -/
def Obligations.ChecksumIsCheckedFirst : Prop :=
  ∀ (P : Profile) (raw : Word),
    decodeFrame P raw = .error .checksumMismatch ↔ (computed P raw).setWidth 32 ≠ P.read raw P.csum

/-- R72: the computed checksum under the two default profiles, from the bits of the sample. -/
def Obligations.ComputedChecksumFormulas : Prop :=
  (∀ raw : Word,
      computed profileA raw =
        BitVec.ofNat 8
          (((raw.extractLsb' 23 1).toNat + (raw.extractLsb' 19 4).toNat + (raw.extractLsb' 15 4).toNat +
              (raw.extractLsb' 0 8).toNat) / 4)) ∧
    ∀ raw : Word,
      computed profileB raw =
        BitVec.ofNat 8
          (((raw.extractLsb' 20 4).toNat + (raw.extractLsb' 5 8).toNat + (raw.extractLsb' 4 1).toNat +
              (raw.extractLsb' 3 1).toNat + (raw.extractLsb' 2 1).toNat + (raw.extractLsb' 1 1).toNat +
              (raw.extractLsb' 0 1).toNat) / 7)

/-- R71, R59: for a well-formed profile that sums no field twice (log 2) the sum does not wrap and stays below `2^24`;
the bounds under the default profiles. -/
def Obligations.ChecksumSumDoesNotWrap : Prop :=
  (∀ (P : Profile) (raw : Word), P.WF → P.summed.Nodup →
      (checksumSum P (P.read raw)).toNat = (P.summed.map fun n => (P.read raw n).toNat).sum ∧
        (P.summed.map fun n => (P.read raw n).toNat).sum < 2 ^ 24) ∧
    ∀ raw : Word,
      (checksumSum profileA (profileA.read raw)).toNat ≤ 286 ∧ (computed profileA raw).toNat ≤ 71 ∧
        (checksumSum profileB (profileB.read raw)).toNat ≤ 275 ∧ (computed profileB raw).toNat ≤ 39

/-- R56: the class of every checksum-valid sample under `PROFILE_A`, by its bits 23 to 19, with its operands. -/
def Obligations.LayoutAOpcodeMap : Prop :=
  ∀ raw : Word, checksumValid profileA raw = true →
    let opcode := raw.extractLsb' 19 5
    let payload := raw.extractLsb' 0 8
    let seq := (raw.extractLsb' 15 4).setWidth 32
    let ignored := raw &&& 0xFF000000#32
    decode profileA raw =
      .ok (if opcode = 0b10000 then .decl payload seq ignored
        else if opcode = 0b11111 then .eom payload seq ignored
        else if opcode = 0b00000 then .data payload seq ignored
        else if raw.getLsbD 23 then .invalidMetadataType (raw.extractLsb' 19 4) payload seq ignored
        else .invalidDataType (raw.extractLsb' 19 4) payload seq ignored)

/-- R57, R80: under `PROFILE_B` every checksum-valid sample is the key record its bits spell. -/
def Obligations.LayoutBOneClass : Prop :=
  ∀ raw : Word, checksumValid profileB raw = true →
    decode profileB raw =
      .ok (.key (raw.extractLsb' 5 8) (raw.getLsbD 4) (raw.getLsbD 3) (raw.getLsbD 2) (raw.getLsbD 1) (raw.getLsbD 0)
        ((raw.extractLsb' 20 4).setWidth 32) (raw &&& 0xFF000000#32))

/-- R84: under a profile of kind `B` the codec accepts a key record or rejects the checksum, nothing else. -/
def Obligations.LayoutBHasOneError : Prop :=
  ∀ (P : Profile) (raw : Word), P.kind = .b →
    decodeFrame P raw = .error .checksumMismatch ∨ ∃ k, decodeFrame P raw = .ok (.keyRecord k)

/-- R85, second law: two valid samples with the same summed fields have the same checksum field. -/
def Obligations.ChecksumFieldIsDetermined : Prop :=
  ∀ (P : Profile) (raw raw' : Word), (∀ n ∈ P.summed, P.read raw n = P.read raw' n) →
    checksumValid P raw = true → (checksumValid P raw' = true ↔ P.read raw' P.csum = P.read raw P.csum)

/-- R85, fifth law: flipping one one-bit summed field of a valid sample is caught exactly when the sum crosses a
multiple of the divisor. -/
def Obligations.OneBitFlipIsCaughtExactly : Prop :=
  (∀ raw : Word, checksumValid profileA raw = true →
      let sum := (checksumSum profileA (profileA.read raw)).toNat
      (raw.getLsbD 23 = false → (checksumValid profileA (raw ^^^ 0x800000#32) = false ↔ sum % 4 = 3)) ∧
        (raw.getLsbD 23 = true → (checksumValid profileA (raw ^^^ 0x800000#32) = false ↔ sum % 4 = 0))) ∧
    ∀ (raw : Word) (j : Nat), j < 5 → checksumValid profileB raw = true →
      let sum := (checksumSum profileB (profileB.read raw)).toNat
      (raw.getLsbD j = false → (checksumValid profileB (raw ^^^ (1#32 <<< j)) = false ↔ sum % 7 = 6)) ∧
        (raw.getLsbD j = true → (checksumValid profileB (raw ^^^ (1#32 <<< j)) = false ↔ sum % 7 = 0))

/-- R46: bits 31 to 24 of a sample change nothing: not the codec's result, not the computed checksum, not the step. -/
def Obligations.TopByteIsIgnored : Prop :=
  ∀ (s : State) (raw : Word), s.params.WF →
    decodeFrame s.params.profile raw = decodeFrame s.params.profile (raw &&& 0x00FFFFFF#32) ∧
      computed s.params.profile raw = computed s.params.profile (raw &&& 0x00FFFFFF#32) ∧
      sampleStep raw s = sampleStep (raw &&& 0x00FFFFFF#32) s

/-- R81: two valid samples that differ only in the sequence number (and the checksum) give the same frame, and the same
registers and outputs but for the exposed sample bits and checksum. -/
def Obligations.SequenceNumberIsUnused : Prop :=
  ∀ (s : State) (raw raw' : Word), s.params.WF → s.halt = false →
    checksumValid s.params.profile raw = true → checksumValid s.params.profile raw' = true →
    (∀ n, n ≠ .sequenceNumber → n ≠ s.params.profile.csum →
      s.params.profile.read raw n = s.params.profile.read raw' n) →
    decodeFrame s.params.profile raw = decodeFrame s.params.profile raw' ∧
      ∃ (t t' : State) (r r' : Report),
        sampleStep raw s = .next t ∧ sampleStep raw' s = .next t' ∧ t.result = some r ∧ t'.result = some r' ∧
          { t with result := none } = { t' with result := none } ∧
          { r with frame24 := 0, computed := 0 } = { r' with frame24 := 0, computed := 0 }

/-- Decode and encode agree, for every well-formed profile and every instruction it can spell. -/
def Obligations.DecodeOfEncodeIsTheInstruction : Prop :=
  ∀ (P : Profile) (i : Instr), P.WF → i.wellFormed P = true → decode P (encode P i) = .ok i

/-- The other direction: what the decoder reads from a sample is well-formed and spells exactly that sample. -/
def Obligations.EncodeOfDecodeIsTheSample : Prop :=
  ∀ (P : Profile) (raw : Word) (i : Instr), P.WF → decode P raw = .ok i →
    i.wellFormed P = true ∧ encode P i = raw

/-- R64, R65: the encoders of the two default profiles, written out. -/
def Obligations.EncoderFormulas : Prop :=
  (∀ s p : Nat, s < 16 → p < 256 →
      encode profileA (.decl (BitVec.ofNat 8 p) (BitVec.ofNat 32 s) 0) =
          BitVec.ofNat 32 (1 <<< 23 ||| 0 <<< 19 ||| s <<< 15 ||| ((1 + 0 + s + p) / 4) <<< 8 ||| p) ∧
        encode profileA (.data (BitVec.ofNat 8 p) (BitVec.ofNat 32 s) 0) =
          BitVec.ofNat 32 (0 <<< 23 ||| 0 <<< 19 ||| s <<< 15 ||| ((0 + 0 + s + p) / 4) <<< 8 ||| p) ∧
        encode profileA (.eom (BitVec.ofNat 8 p) (BitVec.ofNat 32 s) 0) =
          BitVec.ofNat 32 (1 <<< 23 ||| 15 <<< 19 ||| s <<< 15 ||| ((1 + 15 + s + p) / 4) <<< 8 ||| p)) ∧
    ∀ (s k : Nat) (v c a h w : Bool), s < 16 → k < 256 →
      encode profileB (.key (BitVec.ofNat 8 k) v c a h w (BitVec.ofNat 32 s) 0) =
        BitVec.ofNat 32
          (s <<< 20 ||| ((s + k + v.toNat + c.toNat + a.toNat + h.toNat + w.toNat) / 7) <<< 13 ||| k <<< 5 |||
            v.toNat <<< 4 ||| c.toNat <<< 3 ||| a.toNat <<< 2 ||| h.toNat <<< 1 ||| w.toNat)

/-- Words of spec/95_test_vectors.md sections 2.2 to 2.4 decode to what the tables say. -/
def Obligations.SpecWordsDecode : Prop :=
  decode profileA 0x00800105 = .ok (.decl 5 0 0) ∧ decode profileA 0x00F98607 = .ok (.eom 7 3 0) ∧
    decode profileA 0x00009A68 = .ok (.data 0x68 1 0) ∧
    decode profileA 0x00A80100 = .ok (.invalidMetadataType 5 0 0 0) ∧
    decode profileA 0x00A80000 = .error .checksumMismatch ∧
    decode profileA 0x007FC7FF = .ok (.invalidDataType 15 255 15 0) ∧
    decode profileB 0x00012822 = .ok (.key 0x41 false false false true false 0 0) ∧
    decode profileB 0x00800105 = .error .checksumMismatch

/-- R66: no two neighbouring frames of the sequences that send a text are equal, so a host's duplicate filter lets every
one of them through. -/
def Obligations.MessageFramesDiffer : Prop :=
  ∀ (text : List Byte) (seq : Nat),
    (1 ≤ text.length → text.length ≤ 255 → NeighboursDiffer ((msgFrames text seq).map (encode profileA))) ∧
      ∀ cap : Byte, text.length < cap.toNat →
        NeighboursDiffer ((msgtFrames text cap seq).map (encode profileA))

/-! ### What each instruction does -/

/-- R91: DECL sets `CAP` to the declared length and `LEN` to 0, emits nothing and changes nothing else. -/
def Obligations.DeclDeclares : Prop :=
  ∀ (len : Byte) (seq ignored : Word) (s : State),
    exec (.decl len seq ignored) s =
      .next { s with
        cap := len
        len := 0
        result := some (s.okReport (.decl len seq ignored) .decl .declared none none) }

/-- R92: a DATA with `LEN >= CAP` changes nothing and reports `IGNORED`; between steps (R16) that is exactly when
`CAP = 0`. -/
def Obligations.DataIsIgnoredAtCapacity : Prop :=
  (∀ (value : Byte) (seq ignored : Word) (s : State), s.cap ≤ s.len →
      exec (.data value seq ignored) s =
        .next { s with result := some (s.okReport (.data value seq ignored) .data .ignored none none) }) ∧
    ∀ s : State, s.phaseOk → (s.cap ≤ s.len ↔ s.cap = 0)

/-- R93: a DATA with `LEN < CAP` writes its byte at index `LEN`, at most 254, and no other byte; it emits the whole message and
clears `CAP` and `LEN` when the message is complete, and counts `LEN` up otherwise; nothing else changes. -/
def Obligations.DataAppendsOrCompletes : Prop :=
  ∀ (value : Byte) (seq ignored : Word) (s : State), s.len < s.cap →
    s.len.toNat ≤ 254 ∧ ∃ m : Memory,
      (∀ i, m.read i = if i = s.len.toNat then value else s.buf.read i) ∧
        exec (.data value seq ignored) s =
          .next
            (if s.len.toNat + 1 = s.cap.toNat then
              { s with
                buf := m
                cap := 0
                len := 0
                result :=
                  some (s.okReport (.data value seq ignored) .data .completed (some (s.gathered ++ [value])) none) }
            else
              { s with
                buf := m
                len := s.len + 1
                result := some (s.okReport (.data value seq ignored) .data .appended none none) })

/-- R94: EOM emits the `LEN` bytes gathered so far, empty or not, clears `CAP` and `LEN`, and changes nothing else. -/
def Obligations.EomTerminates : Prop :=
  ∀ (pad : Byte) (seq ignored : Word) (s : State),
    exec (.eom pad seq ignored) s =
      .next { s with
        cap := 0
        len := 0
        result := some (s.okReport (.eom pad seq ignored) .eom .terminated (some s.gathered) none) }

/-- R110: both rejected classes set `VIOL`, set `HALT` under the policy `halt`, report their code with the sample's bits
and its computed checksum, emit nothing and change nothing else. -/
def Obligations.ViolationsAreReported : Prop :=
  ∀ (code : BitVec 4) (payload : Byte) (seq ignored : Word) (s : State),
    exec (.invalidMetadataType code payload seq ignored) s =
        .next { s with
          viol := true
          halt := s.haltAfter
          result := some (s.violationReport .invalidMetadataType (.invalidMetadataType code payload seq ignored)) } ∧
      exec (.invalidDataType code payload seq ignored) s =
        .next { s with
          viol := true
          halt := s.haltAfter
          result := some (s.violationReport .invalidDataType (.invalidDataType code payload seq ignored)) }

/-- R112: KEY emits its key record in the same step and changes no register. -/
def Obligations.KeyIsEmittedAtOnce : Prop :=
  ∀ (code : Byte) (vk ctrl alt shift win : Bool) (seq ignored : Word) (s : State),
    let i := Instr.key code vk ctrl alt shift win seq ignored
    exec i s =
      .next { s with result := some (s.okReport i .key .none none (some ⟨code, vk, ctrl, alt, shift, win⟩)) }

/-- R96: every row of the phase table. -/
def Obligations.PhaseTable : Prop :=
  ∀ (s : State) (seq ignored : Word), s.phaseOk →
    (∀ len : Byte, ∃ t, exec (.decl len seq ignored) s = .next t ∧ t.msg = none ∧
        if len = 0 then t.idle else t.accum ∧ t.cap = len ∧ t.len = 0) ∧
      (∀ value : Byte, ∃ t, exec (.data value seq ignored) s = .next t ∧
        if s.cap = 0 then t.idle ∧ t.msg = none
        else if s.len.toNat + 1 = s.cap.toNat then
          t.idle ∧ ∃ m, t.msg = some m ∧ m.length = s.cap.toNat
        else t.accum ∧ t.cap = s.cap ∧ t.len = s.len + 1 ∧ t.msg = none) ∧
      ∀ pad : Byte, ∃ t, exec (.eom pad seq ignored) s = .next t ∧ t.idle ∧
        ∃ m, t.msg = some m ∧ m.length = s.len.toNat ∧ (s.cap = 0 → m = []) ∧ (s.cap ≠ 0 → m.length < s.cap.toNat)

/-! ### The step -/

/-- R106, R113: when the offered sample decodes, the step is exec of the instruction; the step itself only takes the
sample from the ports and counts its tick. -/
def Obligations.StepRunsTheDecodedInstruction : Prop :=
  ∀ (s : State) (raw : Word) (rest : List InPorts) (i : Instr), s.Offered raw rest → s.halt = false →
    decode s.params.profile raw = .ok i →
    step s = exec i { s with inputs := rest, tick := s.tick + 1 }

/-- R109: a sample whose checksum does not match is dropped: no register changes and nothing is emitted; and what a step
reports, this code or another, is read by no later step. -/
def Obligations.MismatchIsDropped : Prop :=
  (∀ (s : State) (raw : Word) (rest : List InPorts), s.Offered raw rest → s.halt = false →
      (computed s.params.profile raw).setWidth 32 ≠ s.params.profile.read raw s.params.profile.csum →
      step s =
        .next { s with
          inputs := rest
          tick := s.tick + 1
          result :=
            some ⟨.checksumMismatch, .decl, .none, raw.setWidth 24, computed s.params.profile raw, none, none, s.viol,
              s.halt⟩ }) ∧
    ∀ (s : State) (presented : Option Report), step { s with result := presented } = step s

/-- R111: while `HALT = 1` a sample is consumed without being decoded; only reset leaves the state; it occurs only
under the policy `halt`. -/
def Obligations.HaltedConsumesSamples : Prop :=
  ∀ s : State, s.Inv → s.halt = true →
    s.params.policy = .halt ∧
      (∀ (raw : Word) (rest : List InPorts), s.Offered raw rest →
        step s =
          .next { s with
            inputs := rest
            tick := s.tick + 1
            result := some ⟨.halted, .decl, .none, raw.setWidth 24, 0, none, none, true, true⟩ }) ∧
      ∀ t : State, step s = .next t → (t.halt = false ↔ ¬ s.NoReset)

/-- R140, R138: reset clears `CAP`, `LEN`, `VIOL` and `HALT`, produces no result, takes no sample and keeps the
parameters; nothing else clears `VIOL` or `HALT`. That a result still presented is withdrawn at the reset (the clause
`t.result = none`) is the model's choice (log 6): R138 says only that reset produces none. -/
def Obligations.ResetAndOnlyResetClears : Prop :=
  (∀ (s : State) (p : InPorts) (rest : List InPorts), s.params.WF → s.inputs = p :: rest → p.rst = true →
      ∃ t : State, step s = .next t ∧ t.cap = 0 ∧ t.len = 0 ∧ t.viol = false ∧ t.halt = false ∧ t.result = none ∧
        t.params = s.params ∧ t.inputs = rest) ∧
    ∀ s t : State, s.NoReset → step s = .next t →
      (s.viol = true → t.viol = true) ∧ (s.halt = true → t.halt = true)

/-- R19, R20: `VIOL` is set exactly by the steps whose sample is a protocol violation, `HALT` exactly by those under the
policy `halt`, and a set flag stays. -/
def Obligations.FlagsRecordViolations : Prop :=
  ∀ (s : State) (raw : Word) (rest : List InPorts) (t : State), s.Offered raw rest → step s = .next t →
    (t.viol = true ↔ s.viol = true ∨ s.Violates raw) ∧
      (t.halt = true ↔ s.halt = true ∨ s.Violates raw ∧ s.params.policy = .halt)

/-- R125: one sample reports one outcome, the first that applies. -/
def Obligations.OutcomePriority : Prop :=
  ∀ (s : State) (raw : Word) (rest : List InPorts), s.Offered raw rest →
    let P := s.params.profile
    ∃ (t : State) (r : Report), step s = .next t ∧ t.result = some r ∧
      r.st =
        if s.halt = true then .halted
        else if (computed P raw).setWidth 32 ≠ P.read raw P.csum then .checksumMismatch
        else if s.params.layout = .b then .ok
        else if P.read raw .isMetadata = 1 then
          if P.read raw .messageType = 0 ∨ P.read raw .messageType = 15 then .ok else .invalidMetadataType
        else if P.read raw .messageType = 0 then .ok
        else .invalidDataType

/-- R114: every delivered sample gets one step and one result; at a moment without a sample or a reset no register
changes and no new result is presented. -/
def Obligations.OneResultPerSample : Prop :=
  (∀ (s : State) (raw : Word) (rest : List InPorts), s.Offered raw rest →
      ∃ (t : State) (r : Report), step s = .next t ∧ t.result = some r ∧ t.inputs = rest) ∧
    ∀ s : State, s.params.WF → (∀ p rest, s.inputs = p :: rest → p.rst = false ∧ p.inValid = false) →
      ∃ t : State, step s = .next t ∧ t.cap = s.cap ∧ t.len = s.len ∧ t.buf = s.buf ∧ t.viol = s.viol ∧
        t.halt = s.halt ∧ (t.result = none ∨ t.result = s.result)

/-- R107, R69: the result of every sample carries the sample's bits 23 to 0, the computed checksum (0 while halted), and
the flags as they stand after the step. -/
def Obligations.ResultCarriesTheSample : Prop :=
  ∀ (s : State) (raw : Word) (rest : List InPorts), s.Offered raw rest →
    ∃ (t : State) (r : Report), step s = .next t ∧ t.result = some r ∧ r.frame24 = raw.extractLsb' 0 24 ∧
      r.computed = (if s.halt = true then 0 else computed s.params.profile raw) ∧ r.viol = t.viol ∧ r.halt = t.halt

/-- R54: exactly the ill-formed instances are refused, and (R36, R68, R96, R119) no step of any state faults. -/
def Obligations.OnlyIllFormedInstancesStop : Prop :=
  ∀ s : State,
    (∃ t, step s = .next t) ∧ s.params.WF ∨ step s = .refused .illFormedInstance ∧ ¬ s.params.WF

/-- R126: a rejected sample has no effect on `CAP`, `LEN` or `BUF` and emits nothing; the only state it may write is the
flags. -/
def Obligations.RejectionsArePrecise : Prop :=
  ∀ (s : State) (raw : Word) (rest : List InPorts) (t : State) (r : Report), s.Offered raw rest →
    step s = .next t → t.result = some r → r.st ≠ .ok →
    t.cap = s.cap ∧ t.len = s.len ∧ t.buf = s.buf ∧ r.msg = none ∧ r.key = none ∧
      (r.st = .checksumMismatch ∨ r.st = .halted → t.viol = s.viol ∧ t.halt = s.halt)

/-- R13, R14, R30: which outcomes of a sample write `CAP`, `LEN` and which byte of BUF. -/
def Obligations.RegisterWriters : Prop :=
  ∀ (s : State) (raw : Word) (rest : List InPorts) (t : State) (r : Report), s.Offered raw rest →
    step s = .next t → t.result = some r →
    (t.cap ≠ s.cap → r.acc = .declared ∨ r.acc = .completed ∨ r.acc = .terminated) ∧
      (t.len ≠ s.len → r.acc = .declared ∨ r.acc = .appended ∨ r.acc = .completed ∨ r.acc = .terminated) ∧
      ∀ i, t.buf.read i ≠ s.buf.read i → i = s.len.toNat ∧ (r.acc = .appended ∨ r.acc = .completed)

/-- R108: a step presents at most one of a message and a key record; Layout A never a key, Layout B never a message. -/
def Obligations.AtMostOneOutput : Prop :=
  ∀ s t : State, step s = .next t →
    (t.msg = none ∨ t.key = none) ∧ (s.params.layout = .a → t.key = none) ∧ (s.params.layout = .b → t.msg = none)

/-- R22: a Layout B sample writes no register, and what it does and presents does not depend on `CAP`, `LEN` or
`BUF`. -/
def Obligations.LayoutBUsesNoRegister : Prop :=
  ∀ (s : State) (raw : Word) (rest : List InPorts) (t : State), s.Offered raw rest → s.params.layout = .b →
    step s = .next t →
    t = { s with inputs := rest, tick := s.tick + 1, result := t.result } ∧
      ∀ (cap len : Byte) (buf : Memory),
        step { s with cap := cap, len := len, buf := buf } = .next { t with cap := cap, len := len, buf := buf }

/-- R6: no step writes the parameters; and every step takes exactly one moment of the ports. -/
def Obligations.ParametersAreFixed : Prop :=
  ∀ s t : State, step s = .next t →
    t.params = s.params ∧ t.inputs = s.inputs.tail ∧ t.tick = s.tick + 1

/-- R16: between steps `LEN < CAP or (CAP = 0 and LEN = 0)`, so `LEN <= 254`, and a DATA is ignored only when
`CAP = 0`. -/
def Obligations.PhaseIsKept : Prop :=
  (∀ p : Params, (State.resetWith p).phaseOk) ∧
    ∀ s : State, s.phaseOk →
      s.len ≤ s.cap ∧ s.len.toNat ≤ 254 ∧ (s.cap ≤ s.len ↔ s.cap = 0) ∧ ∀ t : State, step s = .next t → t.phaseOk

/-- The invariant holds right after reset, for every well-formed instance. Its clauses on `CAP`, `LEN`, `VIOL` and `HALT`
rest on R16 and R24. Its clauses on the cells of BUF (the canonical form; nothing listed under Layout B) rest on the
model's choice that reset lists nothing (log 3): R24 leaves the bytes of BUF unspecified. -/
def Obligations.ResetMeetsTheInvariant : Prop := ∀ p : Params, p.WF → (State.resetWith p).Inv

/-- Every step keeps the invariant. Two of its clauses are the model's choice (log 3), not the spec's: that the cells of
BUF are in the canonical form, and that BUF lists nothing under Layout B. R22 says that BUF keeps its reset value there,
and R24 leaves that value unspecified. That the result held in the state still shows the flags (the clause `report`)
rests on the model's holding it until the next step (log 6). -/
def Obligations.StepKeepsTheInvariant : Prop := ∀ s t : State, s.Inv → step s = .next t → t.Inv

/-- R24: the values the spec gives for reset. -/
def Obligations.ResetValues : Prop :=
  ∀ p : Params,
    let s := State.resetWith p
    s.cap = 0 ∧ s.len = 0 ∧ s.viol = false ∧ s.halt = false ∧ s.params = p

/-- R97: how long an emitted message is. -/
def Obligations.MessageLengths : Prop :=
  ∀ (s : State) (raw : Word) (rest : List InPorts) (t : State) (r : Report) (m : List Byte), s.Offered raw rest →
    s.phaseOk → step s = .next t → t.result = some r → r.msg = some m →
    m.length ≤ 255 ∧
      (r.acc = .completed ∧ m.length = s.cap.toNat ∧ 1 ≤ m.length ∨
        r.acc = .terminated ∧ m.length = s.len.toNat ∧ m.length ≤ 254 ∧ (s.cap ≠ 0 → m.length < s.cap.toNat))

/-- R105, R106: for every state and every sample, the step is the rules' own pseudocode run on the state as R25
represents it: same next state, same result record. -/
def Obligations.StepRefinesThePseudocode : Prop :=
  ∀ (s : State) (raw : Word) (rest : List InPorts), s.Offered raw rest →
    ∃ t : State, step s = .next t ∧ t.view = (listStep s.params s.view raw).1 ∧
      t.result = some (listStep s.params s.view raw).2 ∧ t.params = s.params ∧ t.inputs = rest

/-- R25, R21: no rule tells apart two states that agree on `CAP`, `LEN`, the bytes of BUF below `LEN`, `VIOL` and
`HALT`: the bytes at and above `LEN`, whose values the model chose (log 3), and the last result never matter. -/
def Obligations.UnreadBytesNeverMatter : Prop := ∀ s t : State, s.Agree t → OutcomeAgree (step s) (step t)

/-- R66, R93 (the round trip of section 1.3 of spec/95_test_vectors.md for every text): a declared text comes out as
exactly one message, at its last frame, whatever the block was doing before. -/
def Obligations.DeclaredTextComesOutWhole : Prop :=
  ∀ (s : State) (text : List Byte) (seq : Nat), s.params.WF → s.params.profile = profileA → s.halt = false →
    1 ≤ text.length → text.length ≤ 255 →
    ∃ (t : State) (rs : List Report),
      deliverAll ((msgFrames text seq).map (encode profileA)) s = some (t, rs) ∧ t.idle ∧ messages rs = [text] ∧
        messages rs.dropLast = [] ∧ t.viol = s.viol ∧ t.halt = false

/-- R66, R94, R101 (section 1.4 of spec/95_test_vectors.md for every text): a text shorter than its declared bound,
ended by EOM, comes out as exactly one message, at the EOM. -/
def Obligations.TerminatedTextComesOutWhole : Prop :=
  ∀ (s : State) (text : List Byte) (cap : Byte) (seq : Nat), s.params.WF → s.params.profile = profileA →
    s.halt = false → text.length < cap.toNat →
    ∃ (t : State) (rs : List Report),
      deliverAll ((msgtFrames text cap seq).map (encode profileA)) s = some (t, rs) ∧ t.idle ∧ messages rs = [text] ∧
        messages rs.dropLast = [] ∧ t.viol = s.viol ∧ t.halt = false

/-! ### Ports and the fetch -/

/-- R115: what the output ports show while a result is presented: its codes, bits and checksum, the message bytes on
their lanes, the packed key flags; and `in_ready` is low while reset is asserted (R139). That `in_ready` is high at every
other moment is the model's choice (log 5): R117 leaves open the cycles in which it is 0. -/
def Obligations.PortsShowTheResult : Prop :=
  ∀ (s : State) (r : Report), s.result = some r →
    let o := s.outPorts
    (o.outValid = true ∧ o.outSt = r.st.code ∧ o.outKind = r.kind.code ∧ o.outAcc = r.acc.code ∧
        o.outFrame24 = r.frame24 ∧ o.outComputed = r.computed ∧ o.viol = s.viol ∧ o.halt = s.halt ∧
        o.outMsgValid = r.msg.isSome ∧ o.outKeyValid = r.key.isSome) ∧
      (∀ m, r.msg = some m → m.length ≤ 255 →
        o.outMsgLen.toNat = m.length ∧ o.outMsgData.length = 255 ∧
          ∀ i, (h : i < m.length) → o.outMsgData[i]? = some m[i]) ∧
      (∀ k, r.key = some k →
        o.outKeyCode = k.keyCode ∧ o.outKeyFlags.getLsbD 4 = k.isVirtualKey ∧ o.outKeyFlags.getLsbD 3 = k.ctrl ∧
          o.outKeyFlags.getLsbD 2 = k.alt ∧ o.outKeyFlags.getLsbD 1 = k.shift ∧ o.outKeyFlags.getLsbD 0 = k.win) ∧
      (∀ p rest, s.inputs = p :: rest → (o.inReady = false ↔ p.rst = true))

/-- The model's own interface (log 4, log 9): an opcode-table word that decodes is what the next step runs: in the
running block, its state kept, where that block takes the word as the instruction, and else in a new instance of the
instruction's layout, right after its reset (R143). -/
def Obligations.TableWordRunsNext : Prop :=
  ∀ (s : State) (nbits w : Nat) (i : Instr), decodeTableWord nbits w = some i →
    if s.params.WF ∧ s.halt = false ∧ decode s.params.profile (tableWord nbits w) = .ok i then
      step (s.withFetchWord nbits w) = exec i { s with tick := s.tick + 1 }
    else
      ∃ p : Params, p.WF ∧ p.layout = i.layout ∧ p.policy = s.params.policy ∧
        step (s.withFetchWord nbits w) = exec i { State.resetWith p with inputs := s.inputs, tick := s.tick + 1 }

/-- R143, U13: a running block refuses other parameters; and wherever the model's interface (log 9, log 14) answers a
state with other parameters, that is the state of a new instance right after its reset, with the registers and flags at
the values of R24 and nothing of the old instance but the host's side of the ports and the tick. That BUF lists nothing
in it is the model's choice (log 3). -/
def Obligations.ParametersChangeOnlyWithTheInstance : Prop :=
  (∀ (s : State) (p : Params), s.configure p = if p = s.params then .next s else .refused .parametersChanged) ∧
    ∀ (s : State) (nbits w : Nat),
      let u := s.withFetchWord nbits w
      u.params ≠ s.params →
        u.params.WF ∧
          u = { State.resetWith u.params with
                inputs := InPorts.deliver (tableWord nbits w) :: s.inputs
                tick := s.tick }
end

