-- ==== Sys2Proof/Laws/Fields.lean ====
section
/-! SUPPORT. Field extraction bit by bit, looking a field up in a well-formed profile, and the bounds of what is read. -/

namespace Sys2Proof

theorem FieldSpec.getLsbD_ones (F : FieldSpec) (j : Nat) :
    F.ones.getLsbD j = (decide (j < 32) && decide (j < F.width)) := by
  simp [FieldSpec.ones, BitVec.getLsbD_ofNat, Nat.testBit_two_pow_sub_one]

/-- Bit `j` of an extracted field is bit `lsb + j` of the sample, inside the field's width. -/
theorem getLsbD_field (raw : Word) (F : FieldSpec) (j : Nat) :
    (field raw F).getLsbD j = (decide (j < F.width) && raw.getLsbD (F.lsb + j)) := by
  simp only [field, BitVec.getLsbD_and, BitVec.getLsbD_ushiftRight, FieldSpec.getLsbD_ones]
  by_cases hj : j < 32
  · simp [hj, Bool.and_comm]
  · simp [hj, BitVec.getLsbD_of_ge raw (F.lsb + j) (by omega)]

/-- The bits a field covers. -/
theorem FieldSpec.getLsbD_mask (F : FieldSpec) (j : Nat) :
    F.mask.getLsbD j = (decide (j < 32) && decide (F.lsb ≤ j) && decide (j < F.lsb + F.width)) := by
  simp only [FieldSpec.mask, BitVec.getLsbD_shiftLeft, FieldSpec.getLsbD_ones]
  rw [Bool.eq_iff_iff]
  simp only [Bool.and_eq_true, Bool.not_eq_true', decide_eq_true_eq, decide_eq_false_iff_not]
  omega

/-- A placed value, bit by bit. -/
theorem FieldSpec.getLsbD_place (F : FieldSpec) (v : Word) (j : Nat) :
    (F.place v).getLsbD j = (decide (j < 32) && !decide (j < F.lsb) && v.getLsbD (j - F.lsb)) := by
  simp [FieldSpec.place]

/-- An extracted field is below `2 ^ width` (R55). -/
theorem toNat_field_lt (raw : Word) (F : FieldSpec) : (field raw F).toNat < 2 ^ F.width := by
  apply Nat.lt_pow_two_of_testBit
  intro j hj
  rw [BitVec.testBit_toNat, getLsbD_field]
  simp [Nat.not_lt.mpr hj]

/-- In a profile with unique names a field is found by its name. -/
theorem Profile.find_of_mem {P : Profile} (names : (P.fields.map FieldSpec.name).Nodup) {F : FieldSpec}
    (hF : F ∈ P.fields) : P.find F.name = some F := by
  unfold Profile.find
  revert names hF
  generalize P.fields = l
  intro names hF
  induction l with
  | nil => cases hF
  | cons G l ih =>
    rw [List.map_cons, List.nodup_cons] at names
    rcases List.mem_cons.mp hF with rfl | hF
    · simp
    · have hne : G.name ≠ F.name := fun h => names.1 (h ▸ List.mem_map_of_mem hF)
      rw [List.find?_cons_of_neg (by simpa using hne)]
      exact ih names.2 hF

/-- What is found by a name is a field of that name. -/
theorem Profile.find_some {P : Profile} {n : FieldName} {F : FieldSpec} (h : P.find n = some F) :
    F ∈ P.fields ∧ F.name = n :=
  ⟨List.mem_of_find?_eq_some h, by simpa using List.find?_some h⟩

theorem Profile.read_of_mem {P : Profile} (names : (P.fields.map FieldSpec.name).Nodup) {F : FieldSpec}
    (hF : F ∈ P.fields) (raw : Word) : P.read raw F.name = field raw F := by
  rw [Profile.read, P.find_of_mem names hF]

theorem Profile.width_of_mem {P : Profile} (names : (P.fields.map FieldSpec.name).Nodup) {F : FieldSpec}
    (hF : F ∈ P.fields) : P.width F.name = F.width := by
  rw [Profile.width, P.find_of_mem names hF]

/-- Every value the codec reads fits the width of its field. -/
theorem Profile.read_lt (P : Profile) (raw : Word) (n : FieldName) : (P.read raw n).toNat < 2 ^ P.width n := by
  unfold Profile.read Profile.width
  cases P.find n with
  | none => simp
  | some F => exact toNat_field_lt raw F

/-- A bit is covered by a profile exactly when one of its fields covers it. -/
theorem Profile.getLsbD_mask (P : Profile) (j : Nat) :
    P.mask.getLsbD j = P.fields.any (fun F => F.mask.getLsbD j) := by
  unfold Profile.mask
  induction P.fields with
  | nil => simp
  | cons F l ih => rw [List.foldr_cons, BitVec.getLsbD_or, ih, List.any_cons]

/-- The encoder, bit by bit: an ignored bit, or a bit of some placed field. -/
theorem getLsbD_encode (P : Profile) (i : Instr) (j : Nat) :
    (encode P i).getLsbD j =
      (P.fields.any (fun F => (F.place (i.fieldValue P F.name)).getLsbD j) || i.ignored.getLsbD j) := by
  unfold encode
  induction P.fields with
  | nil => simp
  | cons F l ih => rw [List.foldr_cons, BitVec.getLsbD_or, ih, List.any_cons, Bool.or_assoc]

/-- The decoder accepts exactly the checksum-valid samples, and answers their class. -/
theorem decode_eq_ok_iff {P : Profile} {raw : Word} {i : Instr} :
    decode P raw = .ok i ↔ checksumValid P raw = true ∧ classify P raw = i := by
  unfold decode
  split <;> simp_all

theorem decode_eq_error_iff {P : Profile} {raw : Word} :
    decode P raw = .error .checksumMismatch ↔ checksumValid P raw = false := by
  unfold decode
  split <;> simp_all

theorem checksumValid_iff {P : Profile} {raw : Word} :
    checksumValid P raw = true ↔ (computed P raw).setWidth 32 = P.read raw P.csum := by
  simp [checksumValid]

theorem profileA_wf : profileA.WF := by decide

theorem profileB_wf : profileB.WF := by decide

theorem Params.default_wf (layout : Layout) (policy : ViolationPolicy) : (Params.default layout policy).WF := by
  cases layout
  · exact ⟨profileA_wf, rfl⟩
  · exact ⟨profileB_wf, rfl⟩

end Sys2Proof
end

