-- ==== Sys2Proof/Laws/Memory.lean ====
section
/-! SUPPORT. The laws of BUF: a read after a write, the canonical form, and what each BUF operation answers. -/

namespace Sys2Proof.Machine

/-- Every listed index of a memory is at least `n`. -/
abbrev Memory.From (n : Nat) (m : Memory) : Prop := ∀ c ∈ m, n ≤ c.1

@[simp] theorem Memory.read_nil (i : Nat) : Memory.read [] i = 0 := rfl

theorem Memory.read_cons (a : Nat) (b : Byte) (m : Memory) (i : Nat) :
    Memory.read ((a, b) :: m) i = if a = i then b else Memory.read m i := rfl

/-- Strictly rising indices, unfolded one entry. -/
theorem rising_cons {c : Host.Cell} {m : Memory} :
    ((c :: m).map Prod.fst).Pairwise (· < ·) ↔ Memory.From (c.1 + 1) m ∧ (m.map Prod.fst).Pairwise (· < ·) := by
  simp [Memory.From]

theorem Memory.read_erase (m : Memory) (i j : Nat) :
    (m.erase i).read j = if j = i then 0 else m.read j := by
  induction m with
  | nil => simp [Memory.erase]
  | cons c m ih =>
    obtain ⟨a, b⟩ := c
    unfold Memory.erase at ih ⊢
    rcases eq_or_ne a i with rfl | h
    · rw [List.filter_cons_of_neg (by simp), ih, Memory.read_cons]
      split_ifs <;> simp_all
    · rw [List.filter_cons_of_pos (by simpa using h), Memory.read_cons, Memory.read_cons, ih]
      split_ifs <;> simp_all

theorem Memory.read_insert (m : Memory) (i : Nat) (v : Byte) (j : Nat) (absent : ∀ c ∈ m, c.1 ≠ i) :
    (m.insert i v).read j = if j = i then v else m.read j := by
  induction m with
  | nil => simp [Memory.insert, Memory.read_cons, eq_comm]
  | cons c m ih =>
    obtain ⟨a, b⟩ := c
    have hne : a ≠ i := absent (a, b) (by simp)
    have ih := ih fun c hc => absent c (by simp [hc])
    unfold Memory.insert
    split
    · rw [Memory.read_cons]
      simp [eq_comm]
    · rw [Memory.read_cons, Memory.read_cons, ih]
      split_ifs <;> simp_all

theorem Memory.mem_erase {m : Memory} {i : Nat} {c : Host.Cell} : c ∈ m.erase i ↔ c ∈ m ∧ c.1 ≠ i := by
  simp [Memory.erase]

theorem Memory.mem_insert {m : Memory} {i : Nat} {v : Byte} {c : Host.Cell} :
    c ∈ m.insert i v ↔ c = (i, v) ∨ c ∈ m := by
  induction m with
  | nil => simp [Memory.insert]
  | cons d m ih =>
    obtain ⟨a, b⟩ := d
    unfold Memory.insert
    split
    · simp
    · rw [List.mem_cons, ih, List.mem_cons]
      tauto

/-- A read after a write: the byte written, and every other byte as before. -/
theorem Memory.read_write (m : Memory) (i : Nat) (v : Byte) (j : Nat) :
    (m.write i v).read j = if j = i then v else m.read j := by
  unfold Memory.write
  split
  · rw [Memory.read_erase]
    simp_all
  · rw [Memory.read_insert _ _ _ _ fun c hc => (Memory.mem_erase.mp hc).2, Memory.read_erase]
    split_ifs <;> rfl

theorem rising_erase {m : Memory} (i : Nat) (h : (m.map Prod.fst).Pairwise (· < ·)) :
    ((m.erase i).map Prod.fst).Pairwise (· < ·) :=
  h.sublist (List.filter_sublist.map _)

theorem rising_insert {m : Memory} (i : Nat) (v : Byte) (absent : ∀ c ∈ m, c.1 ≠ i)
    (h : (m.map Prod.fst).Pairwise (· < ·)) : ((m.insert i v).map Prod.fst).Pairwise (· < ·) := by
  induction m with
  | nil => simp [Memory.insert]
  | cons c m ih =>
    obtain ⟨a, b⟩ := c
    have hne : a ≠ i := absent (a, b) (by simp)
    obtain ⟨hfrom, htail⟩ := rising_cons.mp h
    unfold Memory.insert
    split
    · rename_i hlt
      refine rising_cons.mpr ⟨fun c hc => ?_, h⟩
      rcases List.mem_cons.mp hc with rfl | hc
      · exact hlt
      · exact le_trans (by simp; omega) (hfrom c hc)
    · refine rising_cons.mpr ⟨fun c hc => ?_, ih (fun c hc => absent c (by simp [hc])) htail⟩
      rcases Memory.mem_insert.mp hc with rfl | hc
      · show a + 1 ≤ i
        omega
      · exact hfrom c hc

theorem Memory.wf_nil : Memory.wf [] := by decide

/-- Every write to an index that exists keeps the canonical form. -/
theorem Memory.wf_write {m : Memory} (h : m.wf) {i : Nat} (hi : i < bufDepth) (v : Byte) : (m.write i v).wf := by
  have herase : (m.erase i).wf := ⟨rising_erase i h.1, fun c hc => h.2 c (Memory.mem_erase.mp hc).1⟩
  unfold Memory.write
  split
  · exact herase
  · rename_i hv
    refine ⟨rising_insert i v (fun c hc => (Memory.mem_erase.mp hc).2) herase.1, fun c hc => ?_⟩
    rcases Memory.mem_insert.mp hc with rfl | hc
    · exact ⟨hi, hv⟩
    · exact herase.2 c hc

theorem bufRead_ok {m : Memory} {i : Nat} (hi : i < bufDepth) : bufRead m i = .ok (m.read i) := if_pos hi

theorem bufWrite_ok {m : Memory} {i : Nat} {v : Byte} (hi : i < bufDepth) : bufWrite m i v = .ok (m.write i v) :=
  if_pos hi

/-- All that a BUF write can do. -/
theorem bufWrite_cases {m : Memory} {i : Nat} {v : Byte} {m' : Memory} (h : bufWrite m i v = .ok m') :
    i < bufDepth ∧ m' = m.write i v := by
  unfold bufWrite at h
  split at h
  · exact ⟨‹_›, by cases h; rfl⟩
  · cases h

/-- Collecting a message reads the bytes 0 to `n - 1` in index order; no index of a count up to 255 is absent. -/
theorem bufBytes_ok {m : Memory} {n : Nat} (hn : n ≤ bufDepth) : bufBytes m n = .ok ((List.range n).map m.read) := by
  induction n with
  | zero => rfl
  | succ n ih =>
    unfold bufBytes
    rw [ih (by omega), bufRead_ok (show n < bufDepth by omega), List.range_succ, List.map_append]
    rfl

end Sys2Proof.Machine
end

