-- ==== Sys2Proof/Laws/State.lean ====
section
/-! SUPPORT. One lemma per field of State per named update, true by rfl, so that no proof unfolds an update. -/

namespace Sys2Proof.Machine

section Updates

@[simp] theorem State.present_cap (s : State) (st : Status) (kind : Kind) (acc : Acc) (f : FrameBits) (c : Byte) (m : Option (List Byte)) (k : Option KeyRecord) :
    (s.present st kind acc f c m k).cap = s.cap := rfl

@[simp] theorem State.present_len (s : State) (st : Status) (kind : Kind) (acc : Acc) (f : FrameBits) (c : Byte) (m : Option (List Byte)) (k : Option KeyRecord) :
    (s.present st kind acc f c m k).len = s.len := rfl

@[simp] theorem State.present_buf (s : State) (st : Status) (kind : Kind) (acc : Acc) (f : FrameBits) (c : Byte) (m : Option (List Byte)) (k : Option KeyRecord) :
    (s.present st kind acc f c m k).buf = s.buf := rfl

@[simp] theorem State.present_viol (s : State) (st : Status) (kind : Kind) (acc : Acc) (f : FrameBits) (c : Byte) (m : Option (List Byte)) (k : Option KeyRecord) :
    (s.present st kind acc f c m k).viol = s.viol := rfl

@[simp] theorem State.present_halt (s : State) (st : Status) (kind : Kind) (acc : Acc) (f : FrameBits) (c : Byte) (m : Option (List Byte)) (k : Option KeyRecord) :
    (s.present st kind acc f c m k).halt = s.halt := rfl

@[simp] theorem State.present_params (s : State) (st : Status) (kind : Kind) (acc : Acc) (f : FrameBits) (c : Byte) (m : Option (List Byte)) (k : Option KeyRecord) :
    (s.present st kind acc f c m k).params = s.params := rfl

@[simp] theorem State.present_inputs (s : State) (st : Status) (kind : Kind) (acc : Acc) (f : FrameBits) (c : Byte) (m : Option (List Byte)) (k : Option KeyRecord) :
    (s.present st kind acc f c m k).inputs = s.inputs := rfl

@[simp] theorem State.present_result (s : State) (st : Status) (kind : Kind) (acc : Acc) (f : FrameBits) (c : Byte) (m : Option (List Byte)) (k : Option KeyRecord) :
    (s.present st kind acc f c m k).result = some ⟨st, kind, acc, f, c, m, k, s.viol, s.halt⟩ := rfl

@[simp] theorem State.present_tick (s : State) (st : Status) (kind : Kind) (acc : Acc) (f : FrameBits) (c : Byte) (m : Option (List Byte)) (k : Option KeyRecord) :
    (s.present st kind acc f c m k).tick = s.tick := rfl

@[simp] theorem State.accept_cap (s : State) (i : Instr) (kind : Kind) (acc : Acc) (m : Option (List Byte)) (k : Option KeyRecord) :
    (s.accept i kind acc m k).cap = s.cap := rfl

@[simp] theorem State.accept_len (s : State) (i : Instr) (kind : Kind) (acc : Acc) (m : Option (List Byte)) (k : Option KeyRecord) :
    (s.accept i kind acc m k).len = s.len := rfl

@[simp] theorem State.accept_buf (s : State) (i : Instr) (kind : Kind) (acc : Acc) (m : Option (List Byte)) (k : Option KeyRecord) :
    (s.accept i kind acc m k).buf = s.buf := rfl

@[simp] theorem State.accept_viol (s : State) (i : Instr) (kind : Kind) (acc : Acc) (m : Option (List Byte)) (k : Option KeyRecord) :
    (s.accept i kind acc m k).viol = s.viol := rfl

@[simp] theorem State.accept_halt (s : State) (i : Instr) (kind : Kind) (acc : Acc) (m : Option (List Byte)) (k : Option KeyRecord) :
    (s.accept i kind acc m k).halt = s.halt := rfl

@[simp] theorem State.accept_params (s : State) (i : Instr) (kind : Kind) (acc : Acc) (m : Option (List Byte)) (k : Option KeyRecord) :
    (s.accept i kind acc m k).params = s.params := rfl

@[simp] theorem State.accept_inputs (s : State) (i : Instr) (kind : Kind) (acc : Acc) (m : Option (List Byte)) (k : Option KeyRecord) :
    (s.accept i kind acc m k).inputs = s.inputs := rfl

@[simp] theorem State.accept_result (s : State) (i : Instr) (kind : Kind) (acc : Acc) (m : Option (List Byte)) (k : Option KeyRecord) :
    (s.accept i kind acc m k).result = some ⟨.ok, kind, acc, frameBits s.params.profile i, i.checksum s.params.profile, m, k, s.viol, s.halt⟩ := rfl

@[simp] theorem State.accept_tick (s : State) (i : Instr) (kind : Kind) (acc : Acc) (m : Option (List Byte)) (k : Option KeyRecord) :
    (s.accept i kind acc m k).tick = s.tick := rfl

@[simp] theorem State.setViolation_cap (s : State) :
    (s.setViolation).cap = s.cap := rfl

@[simp] theorem State.setViolation_len (s : State) :
    (s.setViolation).len = s.len := rfl

@[simp] theorem State.setViolation_buf (s : State) :
    (s.setViolation).buf = s.buf := rfl

@[simp] theorem State.setViolation_viol (s : State) :
    (s.setViolation).viol = true := rfl

@[simp] theorem State.setViolation_halt (s : State) :
    (s.setViolation).halt = haltAfterViolation s.params.policy s.halt := rfl

@[simp] theorem State.setViolation_params (s : State) :
    (s.setViolation).params = s.params := rfl

@[simp] theorem State.setViolation_inputs (s : State) :
    (s.setViolation).inputs = s.inputs := rfl

@[simp] theorem State.setViolation_result (s : State) :
    (s.setViolation).result = s.result := rfl

@[simp] theorem State.setViolation_tick (s : State) :
    (s.setViolation).tick = s.tick := rfl

@[simp] theorem State.raiseViolation_cap (s : State) (st : Status) (i : Instr) :
    (s.raiseViolation st i).cap = s.cap := rfl

@[simp] theorem State.raiseViolation_len (s : State) (st : Status) (i : Instr) :
    (s.raiseViolation st i).len = s.len := rfl

@[simp] theorem State.raiseViolation_buf (s : State) (st : Status) (i : Instr) :
    (s.raiseViolation st i).buf = s.buf := rfl

@[simp] theorem State.raiseViolation_viol (s : State) (st : Status) (i : Instr) :
    (s.raiseViolation st i).viol = true := rfl

@[simp] theorem State.raiseViolation_halt (s : State) (st : Status) (i : Instr) :
    (s.raiseViolation st i).halt = haltAfterViolation s.params.policy s.halt := rfl

@[simp] theorem State.raiseViolation_params (s : State) (st : Status) (i : Instr) :
    (s.raiseViolation st i).params = s.params := rfl

@[simp] theorem State.raiseViolation_inputs (s : State) (st : Status) (i : Instr) :
    (s.raiseViolation st i).inputs = s.inputs := rfl

@[simp] theorem State.raiseViolation_result (s : State) (st : Status) (i : Instr) :
    (s.raiseViolation st i).result = some ⟨st, .decl, .none, frameBits s.params.profile i, i.checksum s.params.profile, none, none, true, haltAfterViolation s.params.policy s.halt⟩ := rfl

@[simp] theorem State.raiseViolation_tick (s : State) (st : Status) (i : Instr) :
    (s.raiseViolation st i).tick = s.tick := rfl

@[simp] theorem State.applyReset_cap (s : State) :
    (s.applyReset).cap = 0 := rfl

@[simp] theorem State.applyReset_len (s : State) :
    (s.applyReset).len = 0 := rfl

@[simp] theorem State.applyReset_buf (s : State) :
    (s.applyReset).buf = [] := rfl

@[simp] theorem State.applyReset_viol (s : State) :
    (s.applyReset).viol = false := rfl

@[simp] theorem State.applyReset_halt (s : State) :
    (s.applyReset).halt = false := rfl

@[simp] theorem State.applyReset_params (s : State) :
    (s.applyReset).params = s.params := rfl

@[simp] theorem State.applyReset_inputs (s : State) :
    (s.applyReset).inputs = s.inputs := rfl

@[simp] theorem State.applyReset_result (s : State) :
    (s.applyReset).result = none := rfl

@[simp] theorem State.applyReset_tick (s : State) :
    (s.applyReset).tick = s.tick := rfl

@[simp] theorem State.haltedReport_cap (s : State) (raw : Word) :
    (s.haltedReport raw).cap = s.cap := rfl

@[simp] theorem State.haltedReport_len (s : State) (raw : Word) :
    (s.haltedReport raw).len = s.len := rfl

@[simp] theorem State.haltedReport_buf (s : State) (raw : Word) :
    (s.haltedReport raw).buf = s.buf := rfl

@[simp] theorem State.haltedReport_viol (s : State) (raw : Word) :
    (s.haltedReport raw).viol = s.viol := rfl

@[simp] theorem State.haltedReport_halt (s : State) (raw : Word) :
    (s.haltedReport raw).halt = s.halt := rfl

@[simp] theorem State.haltedReport_params (s : State) (raw : Word) :
    (s.haltedReport raw).params = s.params := rfl

@[simp] theorem State.haltedReport_inputs (s : State) (raw : Word) :
    (s.haltedReport raw).inputs = s.inputs := rfl

@[simp] theorem State.haltedReport_result (s : State) (raw : Word) :
    (s.haltedReport raw).result = some ⟨.halted, .decl, .none, raw.setWidth 24, 0, none, none, s.viol, s.halt⟩ := rfl

@[simp] theorem State.haltedReport_tick (s : State) (raw : Word) :
    (s.haltedReport raw).tick = s.tick := rfl

@[simp] theorem State.dropReport_cap (s : State) (raw : Word) :
    (s.dropReport raw).cap = s.cap := rfl

@[simp] theorem State.dropReport_len (s : State) (raw : Word) :
    (s.dropReport raw).len = s.len := rfl

@[simp] theorem State.dropReport_buf (s : State) (raw : Word) :
    (s.dropReport raw).buf = s.buf := rfl

@[simp] theorem State.dropReport_viol (s : State) (raw : Word) :
    (s.dropReport raw).viol = s.viol := rfl

@[simp] theorem State.dropReport_halt (s : State) (raw : Word) :
    (s.dropReport raw).halt = s.halt := rfl

@[simp] theorem State.dropReport_params (s : State) (raw : Word) :
    (s.dropReport raw).params = s.params := rfl

@[simp] theorem State.dropReport_inputs (s : State) (raw : Word) :
    (s.dropReport raw).inputs = s.inputs := rfl

@[simp] theorem State.dropReport_result (s : State) (raw : Word) :
    (s.dropReport raw).result = some ⟨.checksumMismatch, .decl, .none, raw.setWidth 24, computed s.params.profile raw, none, none, s.viol, s.halt⟩ := rfl

@[simp] theorem State.dropReport_tick (s : State) (raw : Word) :
    (s.dropReport raw).tick = s.tick := rfl

@[simp] theorem State.wait_cap (s : State) :
    (s.wait).cap = s.cap := rfl

@[simp] theorem State.wait_len (s : State) :
    (s.wait).len = s.len := rfl

@[simp] theorem State.wait_buf (s : State) :
    (s.wait).buf = s.buf := rfl

@[simp] theorem State.wait_viol (s : State) :
    (s.wait).viol = s.viol := rfl

@[simp] theorem State.wait_halt (s : State) :
    (s.wait).halt = s.halt := rfl

@[simp] theorem State.wait_params (s : State) :
    (s.wait).params = s.params := rfl

@[simp] theorem State.wait_inputs (s : State) :
    (s.wait).inputs = s.inputs := rfl

@[simp] theorem State.wait_result (s : State) :
    (s.wait).result = none := rfl

@[simp] theorem State.wait_tick (s : State) :
    (s.wait).tick = s.tick := rfl

@[simp] theorem State.tookInput_cap (s : State) (rest : List InPorts) :
    (s.tookInput rest).cap = s.cap := rfl

@[simp] theorem State.tookInput_len (s : State) (rest : List InPorts) :
    (s.tookInput rest).len = s.len := rfl

@[simp] theorem State.tookInput_buf (s : State) (rest : List InPorts) :
    (s.tookInput rest).buf = s.buf := rfl

@[simp] theorem State.tookInput_viol (s : State) (rest : List InPorts) :
    (s.tookInput rest).viol = s.viol := rfl

@[simp] theorem State.tookInput_halt (s : State) (rest : List InPorts) :
    (s.tookInput rest).halt = s.halt := rfl

@[simp] theorem State.tookInput_params (s : State) (rest : List InPorts) :
    (s.tookInput rest).params = s.params := rfl

@[simp] theorem State.tookInput_inputs (s : State) (rest : List InPorts) :
    (s.tookInput rest).inputs = rest := rfl

@[simp] theorem State.tookInput_result (s : State) (rest : List InPorts) :
    (s.tookInput rest).result = s.result := rfl

@[simp] theorem State.tookInput_tick (s : State) (rest : List InPorts) :
    (s.tookInput rest).tick = s.tick + 1 := rfl

@[simp] theorem State.offer_cap (s : State) (raw : Word) :
    (s.offer raw).cap = s.cap := rfl

@[simp] theorem State.offer_len (s : State) (raw : Word) :
    (s.offer raw).len = s.len := rfl

@[simp] theorem State.offer_buf (s : State) (raw : Word) :
    (s.offer raw).buf = s.buf := rfl

@[simp] theorem State.offer_viol (s : State) (raw : Word) :
    (s.offer raw).viol = s.viol := rfl

@[simp] theorem State.offer_halt (s : State) (raw : Word) :
    (s.offer raw).halt = s.halt := rfl

@[simp] theorem State.offer_params (s : State) (raw : Word) :
    (s.offer raw).params = s.params := rfl

@[simp] theorem State.offer_inputs (s : State) (raw : Word) :
    (s.offer raw).inputs = InPorts.deliver raw :: s.inputs := rfl

@[simp] theorem State.offer_result (s : State) (raw : Word) :
    (s.offer raw).result = s.result := rfl

@[simp] theorem State.offer_tick (s : State) (raw : Word) :
    (s.offer raw).tick = s.tick := rfl

@[simp] theorem State.newInstance_cap (s : State) (p : Params) :
    (s.newInstance p).cap = 0 := rfl

@[simp] theorem State.newInstance_len (s : State) (p : Params) :
    (s.newInstance p).len = 0 := rfl

@[simp] theorem State.newInstance_buf (s : State) (p : Params) :
    (s.newInstance p).buf = [] := rfl

@[simp] theorem State.newInstance_viol (s : State) (p : Params) :
    (s.newInstance p).viol = false := rfl

@[simp] theorem State.newInstance_halt (s : State) (p : Params) :
    (s.newInstance p).halt = false := rfl

@[simp] theorem State.newInstance_params (s : State) (p : Params) :
    (s.newInstance p).params = p := rfl

@[simp] theorem State.newInstance_inputs (s : State) (p : Params) :
    (s.newInstance p).inputs = s.inputs := rfl

@[simp] theorem State.newInstance_result (s : State) (p : Params) :
    (s.newInstance p).result = none := rfl

@[simp] theorem State.newInstance_tick (s : State) (p : Params) :
    (s.newInstance p).tick = s.tick := rfl

end Updates

end Sys2Proof.Machine
end

