-- ==== Sys2Proof/Laws/Instructions.lean ====
section
/-! SUPPORT. What each meaning answers, once: the provers cite these and unfold no meaning. -/

namespace Sys2Proof.Machine

theorem execDecl_eq (len : Byte) (seq ignored : Word) (s : State) :
    execDecl len seq ignored s =
      .next (({ s with cap := len, len := 0 } : State).accept (.decl len seq ignored) .decl .declared none none) := rfl

/-- No state of the block makes EOM read an index that does not exist. -/
theorem execEom_eq (pad : Byte) (seq ignored : Word) (s : State) :
    execEom pad seq ignored s =
      .next (({ s with cap := 0, len := 0 } : State).accept (.eom pad seq ignored) .eom .terminated
        (some ((List.range s.len.toNat).map s.buf.read)) none) := by
  unfold execEom
  rw [bufBytes_ok (show s.len.toNat ≤ bufDepth by have := s.len.isLt; simp only [bufDepth]; omega)]

theorem execData_ignored {s : State} (h : s.cap.toNat ≤ s.len.toNat) (value : Byte) (seq ignored : Word) :
    execData value seq ignored s = .next (s.accept (.data value seq ignored) .data .ignored none none) := if_pos h

/-- The bytes of a memory up to and with the one just written. -/
theorem range_succ_map_read_write (m : Memory) (n : Nat) (v : Byte) :
    (List.range (n + 1)).map (m.write n v).read = (List.range n).map m.read ++ [v] := by
  rw [List.range_succ, List.map_append]
  congr 1
  · refine List.map_congr_left fun i hi => ?_
    rw [Memory.read_write, if_neg (by have := List.mem_range.mp hi; omega)]
  · simp [Memory.read_write]

/-- The DATA that fills the declared length. -/
theorem execData_completed {s : State} (h : s.len.toNat + 1 = s.cap.toNat) (value : Byte) (seq ignored : Word) :
    execData value seq ignored s =
      .next (({ s with buf := s.buf.write s.len.toNat value, cap := 0, len := 0 } : State).accept
        (.data value seq ignored) .data .completed (some ((List.range s.len.toNat).map s.buf.read ++ [value])) none) := by
  have hlt : s.len.toNat < bufDepth := by have := s.cap.isLt; simp only [bufDepth]; omega
  unfold execData
  rw [if_neg (by omega), bufWrite_ok hlt]
  simp only
  rw [if_pos h, bufBytes_ok (by omega), range_succ_map_read_write]

/-- The DATA that leaves the message open. -/
theorem execData_appended {s : State} (h : s.len.toNat + 1 < s.cap.toNat) (value : Byte) (seq ignored : Word) :
    execData value seq ignored s =
      .next (({ s with buf := s.buf.write s.len.toNat value, len := s.len + 1 } : State).accept
        (.data value seq ignored) .data .appended none none) := by
  have hlt : s.len.toNat < bufDepth := by have := s.cap.isLt; simp only [bufDepth]; omega
  unfold execData
  rw [if_neg (by omega), bufWrite_ok hlt]
  simp only
  rw [if_neg (by omega)]

theorem execInvalidMetadataType_eq (code : BitVec 4) (payload : Byte) (seq ignored : Word) (s : State) :
    execInvalidMetadataType code payload seq ignored s =
      .next (s.raiseViolation .invalidMetadataType (.invalidMetadataType code payload seq ignored)) := rfl

theorem execInvalidDataType_eq (code : BitVec 4) (payload : Byte) (seq ignored : Word) (s : State) :
    execInvalidDataType code payload seq ignored s =
      .next (s.raiseViolation .invalidDataType (.invalidDataType code payload seq ignored)) := rfl

theorem execKey_eq (code : Byte) (vk ctrl alt shift win : Bool) (seq ignored : Word) (s : State) :
    execKey code vk ctrl alt shift win seq ignored s =
      .next (s.accept (.key code vk ctrl alt shift win seq ignored) .key .none none
        (some ⟨code, vk, ctrl, alt, shift, win⟩)) := rfl

/-- The three branches of DATA, said once (R92, R93). -/
theorem execData_cases (value : Byte) (seq ignored : Word) (s : State) :
    s.cap.toNat ≤ s.len.toNat ∧
        execData value seq ignored s = .next (s.accept (.data value seq ignored) .data .ignored none none) ∨
      s.len.toNat + 1 = s.cap.toNat ∧
        execData value seq ignored s =
          .next (({ s with buf := s.buf.write s.len.toNat value, cap := 0, len := 0 } : State).accept
            (.data value seq ignored) .data .completed (some ((List.range s.len.toNat).map s.buf.read ++ [value]))
            none) ∨
      s.len.toNat + 1 < s.cap.toNat ∧
        execData value seq ignored s =
          .next (({ s with buf := s.buf.write s.len.toNat value, len := s.len + 1 } : State).accept
            (.data value seq ignored) .data .appended none none) := by
  rcases Nat.lt_trichotomy (s.len.toNat + 1) s.cap.toNat with h | h | h
  · exact .inr (.inr ⟨h, execData_appended h ..⟩)
  · exact .inr (.inl ⟨h, execData_completed h ..⟩)
  · exact .inl ⟨by omega, execData_ignored (by omega) ..⟩

end Sys2Proof.Machine
end

