-- ==== Sys2Proof/Laws/PerInstr.lean ====
section
/-! SUPPORT. The per-instruction family `OperandFits`: every value a well-formed instruction gives a field fits the
field's width. -/

namespace Sys2Proof.Laws

/-- Under every well-formed profile that can spell the instruction, the value it gives each field of the profile is
below `2 ^ width`, so the encoder drops no bit of it. -/
def OperandFits.Statement (i : Instr) : Prop :=
  ∀ P : Profile, P.WF → i.wellFormed P = true → ∀ F ∈ P.fields, (i.fieldValue P F.name).toNat < 2 ^ F.width

theorem wellFormed_iff {P : Profile} {i : Instr} :
    i.wellFormed P = true ↔
      i.layout = P.kind ∧ i.typeCodeOk = true ∧ i.seq.toNat < 2 ^ P.width .sequenceNumber ∧
        (i.checksum P).toNat < 2 ^ P.width P.csum ∧ i.ignored &&& P.mask = 0 := by
  simp only [Instr.wellFormed, Bool.and_eq_true, decide_eq_true_eq, and_assoc]

/-- The reduction every lemma of the family uses: the checksum field by `wellFormed`, the others by their operand. -/
theorem operandFits_of {i : Instr}
    (h : ∀ P : Profile, P.WF → i.wellFormed P = true → ∀ n ∈ P.fields.map FieldSpec.name, n ≠ P.csum →
      (i.operand n).toNat < 2 ^ P.width n) : OperandFits.Statement i := by
  intro P hP hi F hF
  rw [← Profile.width_of_mem hP.2.2.1.1 hF]
  unfold Instr.fieldValue
  split
  · rename_i hc
    rw [hc, BitVec.toNat_setWidth]
    exact lt_of_le_of_lt (Nat.mod_le _ _) (wellFormed_iff.mp hi).2.2.2.1
  · exact h P hP hi F.name (List.mem_map_of_mem hF) ‹_›

theorem toNat_setWidth_lt {w : Nat} (v : BitVec w) {k : Nat} (h : w ≤ k) : (v.setWidth 32).toNat < 2 ^ k := by
  rw [BitVec.toNat_setWidth]
  exact lt_of_le_of_lt (Nat.mod_le _ _) (lt_of_lt_of_le v.isLt (Nat.pow_le_pow_right (by decide) h))

theorem toNat_flagWord_lt (b : Bool) : (flagWord b).toNat < 2 ^ 1 := by cases b <;> decide

/-- The names of a kind `A` profile other than its checksum, with their widths (W5). -/
theorem layoutA_names {P : Profile} (hP : P.WF) (hk : P.kind = .a) {n : FieldName}
    (hn : n ∈ P.fields.map FieldSpec.name) (hc : n ≠ P.csum) :
    n = .sequenceNumber ∨ n = .isMetadata ∧ P.width n = 1 ∨ n = .messageType ∧ P.width n = 4 ∨
      n = .payload ∧ P.width n = 8 := by
  obtain ⟨hperm, h1, h2, h3⟩ := hP.2.2.2.2.1 hk
  have := hperm.mem_iff.mp hn
  simp only [List.mem_cons, List.not_mem_nil, or_false] at this
  rcases this with rfl | rfl | rfl | rfl | rfl <;> simp_all

/-- The names of a kind `B` profile other than its checksum, with their widths (W6). -/
theorem layoutB_names {P : Profile} (hP : P.WF) (hk : P.kind = .b) {n : FieldName}
    (hn : n ∈ P.fields.map FieldSpec.name) (hc : n ≠ P.csum) :
    n = .sequenceNumber ∨ n = .keyCode ∧ P.width n = 8 ∨
      (n = .isVirtualKey ∨ n = .ctrl ∨ n = .alt ∨ n = .shift ∨ n = .win) ∧ P.width n = 1 := by
  obtain ⟨hperm, h1, h2, h3, h4, h5, h6⟩ := hP.2.2.2.2.2 hk
  have := hperm.mem_iff.mp hn
  simp only [List.mem_cons, List.not_mem_nil, or_false] at this
  rcases this with rfl | rfl | rfl | rfl | rfl | rfl | rfl | rfl <;> simp_all

theorem OperandFits.decl (len : Byte) (seq ignored : Word) : OperandFits.Statement (.decl len seq ignored) := by
  refine operandFits_of fun P hP hi n hn hc => ?_
  have hw := wellFormed_iff.mp hi
  rcases layoutA_names hP hw.1.symm hn hc with rfl | ⟨rfl, h⟩ | ⟨rfl, h⟩ | ⟨rfl, h⟩
  · exact hw.2.2.1
  · rw [h]; exact (by decide : (1 : Word).toNat < 2 ^ 1)
  · rw [h]; exact (by decide : (0 : Word).toNat < 2 ^ 4)
  · rw [h]; exact toNat_setWidth_lt len (by decide)

theorem OperandFits.eom (pad : Byte) (seq ignored : Word) : OperandFits.Statement (.eom pad seq ignored) := by
  refine operandFits_of fun P hP hi n hn hc => ?_
  have hw := wellFormed_iff.mp hi
  rcases layoutA_names hP hw.1.symm hn hc with rfl | ⟨rfl, h⟩ | ⟨rfl, h⟩ | ⟨rfl, h⟩
  · exact hw.2.2.1
  · rw [h]; exact (by decide : (1 : Word).toNat < 2 ^ 1)
  · rw [h]; exact (by decide : (15 : Word).toNat < 2 ^ 4)
  · rw [h]; exact toNat_setWidth_lt pad (by decide)

theorem OperandFits.data (value : Byte) (seq ignored : Word) : OperandFits.Statement (.data value seq ignored) := by
  refine operandFits_of fun P hP hi n hn hc => ?_
  have hw := wellFormed_iff.mp hi
  rcases layoutA_names hP hw.1.symm hn hc with rfl | ⟨rfl, h⟩ | ⟨rfl, h⟩ | ⟨rfl, h⟩
  · exact hw.2.2.1
  · rw [h]; exact (by decide : (0 : Word).toNat < 2 ^ 1)
  · rw [h]; exact (by decide : (0 : Word).toNat < 2 ^ 4)
  · rw [h]; exact toNat_setWidth_lt value (by decide)

theorem OperandFits.invalidMetadataType (code : BitVec 4) (payload : Byte) (seq ignored : Word) :
    OperandFits.Statement (.invalidMetadataType code payload seq ignored) := by
  refine operandFits_of fun P hP hi n hn hc => ?_
  have hw := wellFormed_iff.mp hi
  rcases layoutA_names hP hw.1.symm hn hc with rfl | ⟨rfl, h⟩ | ⟨rfl, h⟩ | ⟨rfl, h⟩
  · exact hw.2.2.1
  · rw [h]; exact (by decide : (1 : Word).toNat < 2 ^ 1)
  · rw [h]; exact toNat_setWidth_lt code (by decide)
  · rw [h]; exact toNat_setWidth_lt payload (by decide)

theorem OperandFits.invalidDataType (code : BitVec 4) (payload : Byte) (seq ignored : Word) :
    OperandFits.Statement (.invalidDataType code payload seq ignored) := by
  refine operandFits_of fun P hP hi n hn hc => ?_
  have hw := wellFormed_iff.mp hi
  rcases layoutA_names hP hw.1.symm hn hc with rfl | ⟨rfl, h⟩ | ⟨rfl, h⟩ | ⟨rfl, h⟩
  · exact hw.2.2.1
  · rw [h]; exact (by decide : (0 : Word).toNat < 2 ^ 1)
  · rw [h]; exact toNat_setWidth_lt code (by decide)
  · rw [h]; exact toNat_setWidth_lt payload (by decide)

theorem OperandFits.key (code : Byte) (vk ctrl alt shift win : Bool) (seq ignored : Word) :
    OperandFits.Statement (.key code vk ctrl alt shift win seq ignored) := by
  refine operandFits_of fun P hP hi n hn hc => ?_
  have hw := wellFormed_iff.mp hi
  rcases layoutB_names hP hw.1.symm hn hc with rfl | ⟨rfl, h⟩ | ⟨h, hw1⟩
  · exact hw.2.2.1
  · rw [h]; exact toNat_setWidth_lt code (by decide)
  · rw [hw1]
    rcases h with rfl | rfl | rfl | rfl | rfl <;> exact toNat_flagWord_lt _

end Sys2Proof.Laws
end

