-- ==== Sys2Proof/Laws/Step.lean ====
section
/-! SUPPORT. What one step can do, said once. -/

namespace Sys2Proof.Machine

/-- What the step does with a delivered sample, by the order of R125. -/
theorem sampleStep_halted {s : State} (h : s.halt = true) (raw : Word) :
    sampleStep raw s = .next (s.haltedReport raw) := if_pos h

theorem sampleStep_mismatch {s : State} (h : s.halt = false) {raw : Word}
    (bad : decode s.params.profile raw = .error .checksumMismatch) : sampleStep raw s = .next (s.dropReport raw) := by
  unfold sampleStep
  rw [if_neg (by simp [h]), bad]

theorem sampleStep_decoded {s : State} (h : s.halt = false) {raw : Word} {i : Instr}
    (good : decode s.params.profile raw = .ok i) : sampleStep raw s = exec i s := by
  unfold sampleStep
  rw [if_neg (by simp [h]), good]

/-- The three ways a sample is taken. -/
theorem sampleStep_cases (raw : Word) (s : State) :
    s.halt = true ∧ sampleStep raw s = .next (s.haltedReport raw) ∨
      s.halt = false ∧ decode s.params.profile raw = .error .checksumMismatch ∧
        sampleStep raw s = .next (s.dropReport raw) ∨
      s.halt = false ∧ ∃ i, decode s.params.profile raw = .ok i ∧ sampleStep raw s = exec i s := by
  by_cases h : s.halt = true
  · exact .inl ⟨h, sampleStep_halted h raw⟩
  · have h : s.halt = false := by simpa using h
    cases hd : decode s.params.profile raw with
    | error e => cases e; exact .inr (.inl ⟨h, rfl, sampleStep_mismatch h hd⟩)
    | ok i => exact .inr (.inr ⟨h, i, rfl, sampleStep_decoded h hd⟩)

theorem step_of_illFormed {s : State} (h : ¬ s.params.WF) : step s = .refused .illFormedInstance := if_neg h

theorem step_of_noInputs {s : State} (h : s.params.WF) (hi : s.inputs = []) :
    step s = .next (s.tookInput []).wait := by
  unfold step advance
  rw [if_pos h, hi]

theorem step_of_inputs {s : State} (h : s.params.WF) {p : InPorts} {rest : List InPorts} (hi : s.inputs = p :: rest) :
    step s = onPorts p (s.tookInput rest) := by
  unfold step advance
  rw [if_pos h, hi]

theorem onPorts_reset {p : InPorts} (h : p.rst = true) (s : State) : onPorts p s = .next s.applyReset := if_pos h

theorem onPorts_sample {p : InPorts} (h : p.rst = false) (hv : p.inValid = true) (s : State) :
    onPorts p s = sampleStep p.inData s := by
  unfold onPorts
  rw [if_neg (by simp [h]), if_pos hv]

theorem onPorts_idle {p : InPorts} (h : p.rst = false) (hv : p.inValid = false) (s : State) :
    onPorts p s = .next s.wait := by
  unfold onPorts
  rw [if_neg (by simp [h]), if_neg (by simp [hv])]

/-- All that a step which answers a next state can have done: waited, been reset, or taken a sample. -/
theorem step_cases {s t : State} (h : step s = .next t) :
    s.params.WF ∧
      (s.inputs = [] ∧ t = (s.tookInput []).wait ∨
        ∃ p rest, s.inputs = p :: rest ∧
          (p.rst = true ∧ t = (s.tookInput rest).applyReset ∨
            p.rst = false ∧ p.inValid = false ∧ t = (s.tookInput rest).wait ∨
            p.rst = false ∧ p.inValid = true ∧ sampleStep p.inData (s.tookInput rest) = .next t)) := by
  by_cases hwf : s.params.WF
  · refine ⟨hwf, ?_⟩
    cases hi : s.inputs with
    | nil =>
      rw [step_of_noInputs hwf hi] at h
      exact .inl ⟨rfl, by cases h; rfl⟩
    | cons p rest =>
      rw [step_of_inputs hwf hi] at h
      refine .inr ⟨p, rest, rfl, ?_⟩
      cases hr : p.rst with
      | true =>
        rw [onPorts_reset hr] at h
        exact .inl ⟨rfl, by cases h; rfl⟩
      | false =>
        cases hv : p.inValid with
        | false =>
          rw [onPorts_idle hr hv] at h
          exact .inr (.inl ⟨rfl, rfl, by cases h; rfl⟩)
        | true =>
          rw [onPorts_sample hr hv] at h
          exact .inr (.inr ⟨rfl, rfl, h⟩)
  · rw [step_of_illFormed hwf] at h
    cases h

/-- The two blocks an opcode-table word can be delivered to. -/
theorem State.instanceFor_cases (s : State) (raw : Word) (i : Instr) :
    s.runs raw i ∧ s.instanceFor raw i = s ∨
      ¬ s.runs raw i ∧ s.instanceFor raw i = s.newInstance (Params.default i.layout s.params.policy) := by
  by_cases h : s.runs raw i
  · exact .inl ⟨h, if_pos h⟩
  · exact .inr ⟨h, if_neg h⟩

/-- The host can ask a running block only for the parameters it has. -/
theorem State.configure_cases (s : State) (p : Params) :
    p = s.params ∧ s.configure p = .next s ∨ p ≠ s.params ∧ s.configure p = .refused .parametersChanged := by
  by_cases h : p = s.params
  · exact .inl ⟨h, if_pos h⟩
  · exact .inr ⟨h, if_neg h⟩

end Sys2Proof.Machine
end

