-- ==== Sys2Proof/Tests/Slice0.lean ====
section
/-! SUPPORT. The model's own tests: ill-formed terms that the checks refuse, words of spec/ decoded bit by bit, one step
per instruction and outcome on small states, and a witness for the hypotheses of every statement. -/

namespace Sys2Proof.Tests

open Sys2Proof.Machine

/-! ## Well-formedness: one ill-formed term per check -/

theorem test_wf_accepts : (Instr.decl 5 0 0).wellFormed profileA = true := by decide

theorem test_wf_refuses_other_layout : (Instr.decl 5 0 0).wellFormed profileB = false := by decide

theorem test_wf_refuses_metadata_code_0 : (Instr.invalidMetadataType 0 5 0 0).wellFormed profileA = false := by decide

theorem test_wf_refuses_metadata_code_15 : (Instr.invalidMetadataType 15 5 0 0).wellFormed profileA = false := by
  decide

theorem test_wf_refuses_data_code_0 : (Instr.invalidDataType 0 5 0 0).wellFormed profileA = false := by decide

theorem test_wf_refuses_wide_sequence : (Instr.data 5 16 0).wellFormed profileA = false := by decide

theorem test_wf_refuses_ignored_in_field : (Instr.data 5 0 0x00800000).wellFormed profileA = false := by decide

/-- `PROFILE_A` with a one-bit checksum field. -/
def narrowChecksum : Profile :=
  { profileA with
    fields := [⟨.isMetadata, 23, 1⟩, ⟨.messageType, 19, 4⟩, ⟨.sequenceNumber, 15, 4⟩, ⟨.checksum, 8, 1⟩, ⟨.payload, 0, 8⟩] }

theorem test_narrow_checksum_is_a_profile : narrowChecksum.WF := by decide

theorem test_wf_refuses_wide_checksum : (Instr.data 255 0 0).wellFormed narrowChecksum = false := by decide

/-- `PROFILE_A` with its fields replaced. -/
def profileWith (fields : List FieldSpec) : Profile := { profileA with fields := fields }

theorem test_profile_refuses_W1_width :
    ¬ (profileWith [⟨.isMetadata, 23, 1⟩, ⟨.messageType, 19, 4⟩, ⟨.sequenceNumber, 15, 0⟩, ⟨.checksum, 8, 7⟩,
      ⟨.payload, 0, 8⟩]).W1 := by decide

theorem test_profile_refuses_W1_top :
    ¬ (profileWith [⟨.isMetadata, 24, 1⟩, ⟨.messageType, 19, 4⟩, ⟨.sequenceNumber, 15, 4⟩, ⟨.checksum, 8, 7⟩,
      ⟨.payload, 0, 8⟩]).W1 := by decide

theorem test_profile_refuses_W2 :
    ¬ (profileWith [⟨.isMetadata, 23, 1⟩, ⟨.messageType, 19, 4⟩, ⟨.sequenceNumber, 15, 4⟩, ⟨.checksum, 7, 7⟩,
      ⟨.payload, 0, 8⟩]).W2 := by decide

theorem test_profile_refuses_W3_summed_checksum :
    ¬ Profile.W3 { profileA with summed := [.isMetadata, .checksum] } := by decide

theorem test_profile_refuses_W3_summed_absent : ¬ Profile.W3 { profileA with summed := [.keyCode] } := by decide

theorem test_profile_refuses_W3_wide_checksum :
    ¬ (profileWith [⟨.isMetadata, 23, 1⟩, ⟨.messageType, 19, 4⟩, ⟨.sequenceNumber, 18, 1⟩, ⟨.checksum, 8, 9⟩,
      ⟨.payload, 0, 8⟩]).W3 := by decide

theorem test_profile_refuses_W4 : ¬ Profile.W4 { profileA with divisor := 0 } := by decide

theorem test_profile_refuses_W5 : ¬ profileB.W5 := by decide

theorem test_profile_refuses_W6 : ¬ profileA.W6 := by decide

/-! ## Decoding words written out from the encodings of 30_encoding.md R49, R52 (vectors of 95_test_vectors.md 2.2 to 2.4) -/

theorem test_decode_decl : decode profileA 0b00000000_1_0000_0000_0000001_00000101 = .ok (.decl 5 0 0) := by decide

theorem test_decode_eom : decode profileA 0b00000000_1_1111_0011_0000110_00000111 = .ok (.eom 7 3 0) := by decide

theorem test_decode_data : decode profileA 0b00000000_0_0000_0001_0011010_01101000 = .ok (.data 0x68 1 0) := by decide

theorem test_decode_invalid_metadata :
    decode profileA 0b00000000_1_1110_0000_0000011_00000000 = .ok (.invalidMetadataType 0xE 0 0 0) := by decide

theorem test_decode_invalid_data :
    decode profileA 0b00000000_0_1111_1111_1000111_11111111 = .ok (.invalidDataType 0xF 255 15 0) := by decide

theorem test_decode_key :
    decode profileB 0b00000000_0001_0001110_01100010_0_1_0_0_0 = .ok (.key 0x62 false true false false false 1 0) := by
  decide

theorem test_decode_key_vk :
    decode profileB 0x003041B0 = .ok (.key 0x0D true false false false false 3 0) := by decide

theorem test_decode_keeps_top_byte : decode profileA 0xAB800105 = .ok (.decl 5 0 0xAB000000) := by decide

theorem test_decode_refuses_checksum : decode profileA 0x00F84400 = .error .checksumMismatch := by decide

theorem test_decode_checksum_before_type : decode profileA 0x00A80000 = .error .checksumMismatch := by decide

theorem test_decode_refuses_key_checksum : decode profileB 0x00210822 = .error .checksumMismatch := by decide

theorem test_decode_table_word :
    decodeTableWord 32 0x00F80400 = some (.eom 0 0 0) ∧
      decodeTableWord 32 0x00012822 = some (.key 0x41 false false false true false 0 0) ∧
      decodeTableWord 32 0x00F80000 = none := by decide

/-- Encodings worked out in 30_encoding.md R64, R65 and 40_frame_codec.md R76. -/
theorem test_encode :
    encode profileA (.decl 5 0 0) = 0x00800105 ∧ encode profileA (.eom 7 3 0) = 0x00F98607 ∧
      encode profileB (.key 0x41 false false false true false 0 0) = 0x00012822 := by decide

/-! ## One step per instruction and outcome (95_test_vectors.md 2.5, 2.6) -/

/-- The next state of an outcome. -/
def nextOf : Host.Outcome State Fault Refusal → Option State
  | .next s => some s
  | _ => none

/-- A Layout A instance with a message being gathered, about to take a sample. -/
def gathering (policy : ViolationPolicy) (cap len : Byte) (buf : Memory) (raw : Word) : State :=
  { State.resetWith ⟨.a, profileA, policy⟩ with cap := cap, len := len, buf := buf, inputs := [InPorts.deliver raw] }

/-- What a test looks at after a step. -/
structure Seen where
  cap : Byte
  len : Byte
  viol : Bool
  halt : Bool
  st : Option Status
  acc : Option Machine.Acc
  msg : Option (List Byte)
deriving DecidableEq, Repr

/-- What a step leaves in `CAP`, `LEN`, `VIOL`, `HALT` and says in `st`, `acc`, `msg`. -/
def summary (s : State) : Option Seen :=
  (nextOf (step s)).map fun t =>
    ⟨t.cap, t.len, t.viol, t.halt, t.result.map Report.st, t.result.map Report.acc, t.msg⟩

theorem test_decl_truncates :
    summary (gathering .halt 5 2 [(0, 0x68), (1, 0x65)] 0x00800103) =
      some ⟨3, 0, false, false, some .ok, some .declared, none⟩ := by decide

theorem test_data_ignored_when_idle :
    summary (gathering .halt 0 0 [] 0x00001C71) = some ⟨0, 0, false, false, some .ok, some .ignored, none⟩ := by decide

theorem test_data_appends :
    (nextOf (step (gathering .halt 5 1 [(0, 0x68)] 0x00011965))).map (fun t => (t.len, t.buf)) =
      some (2, [(0, 0x68), (1, 0x65)]) := by decide

theorem test_data_zero_completes :
    summary (gathering .halt 1 0 [(0, 0x99)] 0x00000000) =
      some ⟨0, 0, false, false, some .ok, some .completed, some [0]⟩ := by decide

theorem test_eom_emits_below_capacity :
    summary (gathering .halt 10 3 [(0, 0x61), (1, 0x62), (2, 0x63)] 0x00FA0500) =
      some ⟨0, 0, false, false, some .ok, some .terminated, some [0x61, 0x62, 0x63]⟩ := by decide

theorem test_eom_idle_emits_empty :
    summary (gathering .halt 0 0 [] 0x00F80400) = some ⟨0, 0, false, false, some .ok, some .terminated, some []⟩ := by
  decide

theorem test_invalid_metadata_halts :
    summary (gathering .halt 4 1 [(0, 0x61)] 0x00A80100) =
      some ⟨4, 1, true, true, some .invalidMetadataType, some .none, none⟩ := by decide

theorem test_invalid_data_skips :
    summary (gathering .skip 4 1 [(0, 0x61)] 0x00080000) =
      some ⟨4, 1, true, false, some .invalidDataType, some .none, none⟩ := by decide

theorem test_mismatch_changes_nothing :
    summary (gathering .halt 5 0 [] 0x00800004) = some ⟨5, 0, false, false, some .checksumMismatch, some .none, none⟩ := by
  decide

theorem test_halted_reports :
    (nextOf (step { gathering .halt 4 1 [(0, 0x61)] 0x00800105 with viol := true, halt := true })).map
        (fun t => (t.cap, t.len, t.result)) =
      some (4, 1, some ⟨.halted, .decl, .none, 0x800105, 0, none, none, true, true⟩) := by decide

/-- A Layout B instance about to take a sample. -/
def keyboard (raw : Word) : State :=
  { State.resetWith ⟨.b, profileB, .halt⟩ with inputs := [InPorts.deliver raw] }

theorem test_key_emits :
    (nextOf (step (keyboard 0x00012822))).map (fun t => (t.cap, t.result)) =
      some (0, some ⟨.ok, .key, .none, 0x012822, 9, none, some ⟨0x41, false, false, false, true, false⟩, false, false⟩) := by
  decide

/-- A sample offered while reset is asserted is not taken (70_reset_and_hazards.md R139). -/
theorem test_reset_takes_no_sample :
    (nextOf (step { gathering .halt 4 1 [(0, 0x61)] 0 with
        viol := true, halt := true, inputs := [⟨true, 0x00800105, true⟩] })).map
        (fun t => (t.cap, t.len, t.viol, t.halt, t.result)) = some (0, 0, false, false, none) := by decide

theorem test_fetch_word_selects_layout :
    (nextOf (step (State.reset.withFetchWord 32 0x00012822))).map (fun t => t.result.bind Report.key) =
      some (some ⟨0x41, false, false, false, true, false⟩) := by decide

/-- DECL 5 has run; a Layout B word is then run by a new instance, with the registers of R24. -/
theorem test_fetch_word_selects_new_instance :
    let s := (nextOf (step (State.reset.withFetchWord 32 0x00800105))).getD State.reset
    s.cap = 5 ∧ (s.withFetchWord 32 0x00012822).params.layout = .b ∧ (s.withFetchWord 32 0x00012822).cap = 0 ∧
      (s.withFetchWord 32 0x00009A68).cap = 5 := by decide

theorem test_running_block_refuses_other_parameters :
    State.reset.configure ⟨.b, profileB, .halt⟩ = .refused .parametersChanged ∧
      State.reset.configure State.reset.params = .next State.reset := ⟨if_neg (by decide), if_pos rfl⟩

theorem test_ill_formed_is_refused :
    nextOf (step { State.reset with params := ⟨.b, profileA, .halt⟩ }) = none := by decide

theorem test_bufRead_index_255 : bufRead [] 255 = .error (.bufIndexAbsent 255) := if_neg (by simp only [bufDepth]; omega)

theorem test_reset_memory_wf : State.reset.buf.wf := by decide

/-! ## Witnesses: the hypotheses of every statement are met by something -/

theorem witness_ChecksumSumDoesNotWrap : profileA.WF ∧ profileA.summed.Nodup := ⟨profileA_wf, by decide⟩

theorem witness_LayoutAOpcodeMap :
    [0x00800105#32, 0x00F80400#32, 0x00009A68#32, 0x00A80100#32, 0x00080000#32].all (checksumValid profileA) = true := by
  decide

theorem witness_LayoutBOneClass : checksumValid profileB 0x00F4FFFF = true := by decide

theorem witness_LayoutBHasOneError :
    profileB.kind = .b ∧ decodeFrame profileB 0x00210822 = .error .checksumMismatch ∧
      decodeFrame profileB 0 = .ok (.keyRecord ⟨0, false, false, false, false, false⟩) := by decide

theorem witness_ChecksumFieldIsDetermined :
    (∀ n ∈ profileA.summed, profileA.read 0x00009A68 n = profileA.read 0x00008A68 n) ∧
      checksumValid profileA 0x00009A68 = true ∧ checksumValid profileA 0x00008A68 = false := by decide

/-- Both directions of a flip, caught and not caught, at the first and the last flag. -/
theorem witness_OneBitFlipIsCaughtExactly :
    (checksumValid profileA 0x00000000 = true ∧ (0#32).getLsbD 23 = false) ∧
      (checksumValid profileA 0x00800105 = true ∧ (0x00800105#32).getLsbD 23 = true) ∧
      (checksumValid profileB 0x00012822 = true ∧ (0x00012822#32).getLsbD 0 = false) ∧
      checksumValid profileB 0x00F4FFFF = true ∧ (0x00F4FFFF#32).getLsbD 4 = true := by decide

theorem witness_TopByteIsIgnored : State.reset.params.WF := by decide

theorem witness_SequenceNumberIsUnused :
    State.reset.params.WF ∧ State.reset.halt = false ∧ checksumValid State.reset.params.profile 0x00009A68 = true ∧
      checksumValid State.reset.params.profile 0x00011A68 = true ∧
      ∀ n, n ≠ FieldName.sequenceNumber → n ≠ State.reset.params.profile.csum →
        State.reset.params.profile.read 0x00009A68 n = State.reset.params.profile.read 0x00011A68 n := by
  refine ⟨by decide, rfl, by decide, by decide, fun n => ?_⟩
  cases n <;> decide

theorem witness_DecodeOfEncodeIsTheInstruction :
    profileA.WF ∧ profileB.WF ∧
      (∀ i ∈ [Instr.decl 255 15 0xFF000000, .eom 255 15 0, .data 0 0 0, .invalidMetadataType 14 0 0 0,
        .invalidDataType 15 255 15 0], i.wellFormed profileA = true) ∧
      (Instr.key 255 true true true true true 15 0).wellFormed profileB = true :=
  ⟨profileA_wf, profileB_wf, by decide, by decide⟩

theorem witness_EncodeOfDecodeIsTheSample :
    profileA.WF ∧ decode profileA 0xAB800105 = .ok (.decl 5 0 0xAB000000) := by decide

theorem witness_MessageFramesDiffer :
    1 ≤ [(0x78 : Byte)].length ∧ [(0x78 : Byte)].length ≤ 255 ∧ ([] : List Byte).length < (1 : Byte).toNat ∧
      (List.replicate 254 (0x78 : Byte)).length < (255 : Byte).toNat :=
  ⟨by decide, by decide, by decide, by rw [List.length_replicate]; decide⟩

theorem witness_DataIsIgnoredAtCapacity : State.reset.cap ≤ State.reset.len := by decide

/-- A DATA that completes the longest message, and one that leaves the shortest open. -/
theorem witness_DataAppendsOrCompletes :
    (gathering .halt 255 254 [] 0).len < (gathering .halt 255 254 [] 0).cap ∧
      (gathering .halt 255 254 [] 0).len.toNat + 1 = (gathering .halt 255 254 [] 0).cap.toNat ∧
      (gathering .halt 2 0 [] 0).len < (gathering .halt 2 0 [] 0).cap ∧
      ¬ (gathering .halt 2 0 [] 0).len.toNat + 1 = (gathering .halt 2 0 [] 0).cap.toNat := by decide

theorem phaseOk_reset (p : Params) : (State.resetWith p).phaseOk := .inr ⟨rfl, rfl⟩

theorem phaseOk_gathering : (gathering .halt 255 254 [] 0).phaseOk := .inl (by simp [State.accum, gathering])

/-- Both phases, and in ACCUM both a DATA that completes and one that does not. -/
theorem witness_PhaseTable :
    State.reset.phaseOk ∧ (gathering .halt 255 254 [] 0).phaseOk ∧ (gathering .halt 2 0 [] 0).phaseOk :=
  ⟨phaseOk_reset _, phaseOk_gathering, .inl (by simp [State.accum, gathering])⟩

theorem offered_gathering (policy : ViolationPolicy) (cap len : Byte) (buf : Memory) (raw : Word) :
    (gathering policy cap len buf raw).Offered raw [] := by
  cases policy <;> exact ⟨show Params.WF ⟨.a, profileA, _⟩ by decide, rfl⟩

theorem offered_keyboard (raw : Word) : (keyboard raw).Offered raw [] :=
  ⟨show Params.WF ⟨.b, profileB, .halt⟩ by decide, rfl⟩

theorem witness_StepRunsTheDecodedInstruction :
    (gathering .halt 0 0 [] 0x00800105).Offered 0x00800105 [] ∧ (gathering .halt 0 0 [] 0x00800105).halt = false ∧
      decode (gathering .halt 0 0 [] 0x00800105).params.profile 0x00800105 = .ok (.decl 5 0 0) :=
  ⟨offered_gathering .., rfl, by decide⟩

theorem witness_MismatchIsDropped :
    (gathering .halt 5 0 [] 0x00800004).Offered 0x00800004 [] ∧ (gathering .halt 5 0 [] 0x00800004).halt = false ∧
      (computed profileA 0x00800004).setWidth 32 ≠ profileA.read 0x00800004 profileA.csum :=
  ⟨offered_gathering .., rfl, by decide⟩

/-- A block halted by a violation in the middle of a message, offered a sample. -/
def haltedState : State := { gathering .halt 4 1 [(0, 0x61)] 0x00800105 with viol := true, halt := true }

theorem inv_haltedState : haltedState.Inv where
  params := by decide
  phase := .inl (by decide)
  buf := by decide
  haltViol := fun _ => rfl
  haltPolicy := fun _ => rfl
  layoutB := fun h => by cases h
  report := fun r h => by cases h

/-- Both clauses: a sample offered to it, and a reset asserted to it. -/
theorem witness_HaltedConsumesSamples :
    haltedState.Inv ∧ haltedState.halt = true ∧ haltedState.Offered 0x00800105 [] ∧ haltedState.NoReset ∧
      ¬ State.NoReset { haltedState with inputs := [⟨true, 0, true⟩] } := by
  refine ⟨inv_haltedState, rfl, ⟨by decide, rfl⟩, fun p rest h => ?_, fun h => ?_⟩
  · cases h; rfl
  · exact absurd (h _ _ rfl) (by decide)

theorem witness_ResetAndOnlyResetClears :
    haltedState.params.WF ∧ haltedState.NoReset ∧ (nextOf (step haltedState)).isSome = true ∧
      haltedState.viol = true ∧ haltedState.halt = true :=
  ⟨by decide, witness_HaltedConsumesSamples.2.2.2.1, by decide, rfl, rfl⟩

/-- A violating sample under both policies. -/
theorem witness_FlagsRecordViolations :
    (gathering .halt 4 1 [] 0x00A80100).Offered 0x00A80100 [] ∧ (gathering .halt 4 1 [] 0x00A80100).Violates 0x00A80100 ∧
      (gathering .skip 4 1 [] 0x00080000).Violates 0x00080000 ∧
      (nextOf (step (gathering .halt 4 1 [] 0x00A80100))).isSome = true :=
  ⟨offered_gathering .., ⟨rfl, .inl (by decide)⟩, ⟨rfl, .inr (by decide)⟩, by decide⟩

theorem witness_OutcomePriority : (keyboard 0x00012822).Offered 0x00012822 [] := offered_keyboard _

/-- No sample at all, and a moment with neither a sample nor a reset. -/
theorem witness_OneResultPerSample :
    State.reset.params.WF ∧
      (∀ p rest, State.reset.inputs = p :: rest → p.rst = false ∧ p.inValid = false) ∧
      ∀ p rest, State.inputs { State.reset with inputs := [⟨false, 7, false⟩] } = p :: rest →
        p.rst = false ∧ p.inValid = false := by
  refine ⟨by decide, ?_, ?_⟩
  · intro p rest h
    cases h
  · intro p rest h
    cases h
    exact ⟨rfl, rfl⟩

theorem witness_RejectionsArePrecise :
    (gathering .halt 5 0 [] 0x00800004).Offered 0x00800004 [] ∧
      ((nextOf (step (gathering .halt 5 0 [] 0x00800004))).bind State.result).map (fun r => decide (r.st ≠ .ok)) =
        some true := ⟨offered_gathering .., by decide⟩

theorem witness_RegisterWriters :
    (gathering .halt 5 1 [(0, 0x68)] 0x00011965).Offered 0x00011965 [] ∧
      ((nextOf (step (gathering .halt 5 1 [(0, 0x68)] 0x00011965))).bind State.result).isSome = true :=
  ⟨offered_gathering .., by decide⟩

theorem witness_AtMostOneOutput :
    ((nextOf (step (keyboard 0x00012822))).bind State.key).isSome = true ∧
      ((nextOf (step (gathering .halt 0 0 [] 0x00F80400))).bind State.msg).isSome = true := by decide

theorem witness_LayoutBUsesNoRegister :
    (keyboard 0x00012822).Offered 0x00012822 [] ∧ (keyboard 0x00012822).params.layout = .b ∧
      (nextOf (step (keyboard 0x00012822))).isSome = true := ⟨offered_keyboard _, rfl, by decide⟩

theorem witness_ParametersAreFixed : (nextOf (step State.reset)).isSome = true := by decide

theorem witness_PhaseIsKept :
    (gathering .halt 255 254 [] 0x00009A68).phaseOk ∧
      (nextOf (step (gathering .halt 255 253 [] 0x00009A68))).isSome = true :=
  ⟨.inl (by decide), by decide⟩

theorem witness_ResetMeetsTheInvariant : defaultParams.WF ∧ Params.WF ⟨.b, profileB, .skip⟩ :=
  ⟨by decide, by decide⟩

theorem witness_StepKeepsTheInvariant : haltedState.Inv ∧ (nextOf (step haltedState)).isSome = true :=
  ⟨inv_haltedState, by decide⟩

/-- A completing DATA and an EOM that emit a message. -/
theorem witness_MessageLengths :
    (gathering .halt 1 0 [] 0).Offered 0 [] ∧ (gathering .halt 1 0 [] 0).phaseOk ∧
      ((nextOf (step (gathering .halt 1 0 [] 0))).bind State.msg).isSome = true ∧
      ((nextOf (step (gathering .halt 3 2 [] 0x00F80400))).bind State.msg).isSome = true :=
  ⟨offered_gathering .., .inl (by decide), by decide, by decide⟩

theorem witness_StepRefinesThePseudocode : haltedState.Offered 0x00800105 [] := ⟨by decide, rfl⟩

/-- Two states that differ in a byte above `LEN`. -/
theorem witness_UnreadBytesNeverMatter :
    (gathering .halt 4 1 [(0, 0x61)] 0x00009A68).Agree (gathering .halt 4 1 [(0, 0x61), (7, 9)] 0x00009A68) where
  cap := rfl
  len := rfl
  buf := by
    intro i hi
    have h0 : i = 0 := by
      have : (gathering .halt 4 1 [(0, 0x61)] 0x00009A68).len.toNat = 1 := by decide
      omega
    subst h0
    decide
  viol := rfl
  halt := rfl
  params := rfl
  inputs := rfl

theorem witness_DeclaredTextComesOutWhole :
    State.reset.params.WF ∧ State.reset.params.profile = profileA ∧ State.reset.halt = false ∧
      1 ≤ [(0x78 : Byte)].length ∧ [(0x78 : Byte)].length ≤ 255 := by decide

theorem witness_TerminatedTextComesOutWhole :
    State.reset.params.WF ∧ State.reset.params.profile = profileA ∧ State.reset.halt = false ∧
      ([] : List Byte).length < (1 : Byte).toNat := by decide

/-- A block that presents a message of 255 bytes at a moment of the ports with or without reset. -/
def presenting (rst : Bool) : State :=
  { State.reset with
    inputs := [⟨true, 0x00800105, rst⟩]
    result := some ⟨.ok, .data, .completed, 0, 0, some (List.replicate 255 7), none, false, false⟩ }

/-- A result with a message of 255 bytes, one with a key record, and both sides of `in_ready`. -/
theorem witness_PortsShowTheResult :
    (∀ rst : Bool, ∃ r : Report, (presenting rst).result = some r ∧ (∃ m, r.msg = some m ∧ m.length ≤ 255) ∧
        (presenting rst).inputs = [⟨true, 0x00800105, rst⟩] ∧ (presenting rst).outPorts.inReady = !rst) ∧
      ∃ k, ((nextOf (step (keyboard 0x00012822))).bind State.key) = some k :=
  ⟨fun _ => ⟨_, rfl, ⟨_, rfl, by rw [List.length_replicate]⟩, rfl, rfl⟩, _, rfl⟩

/-- A word the running block takes, and one only another instance takes: both branches. -/
theorem witness_TableWordRunsNext :
    decodeTableWord 32 0x00800105 = some (.decl 5 0 0) ∧ State.reset.runs (tableWord 32 0x00800105) (.decl 5 0 0) ∧
      decodeTableWord 32 0x00012822 = some (.key 0x41 false false false true false 0 0) ∧
      ¬ State.reset.runs (tableWord 32 0x00012822) (.key 0x41 false false false true false 0 0) :=
  ⟨by decide, by decide, by decide, by decide⟩

/-- A block that gathers a message, and a Layout B word. -/
theorem witness_ParametersChangeOnlyWithTheInstance :
    let s := gathering .halt 4 1 [(0, 0x61)] 0
    (s.withFetchWord 32 0x00012822).params ≠ s.params ∧ s.cap = 4 := by decide

end Sys2Proof.Tests
end

