-- ==== Sys2Proof/Proofs/Scope.lean ====
section
/-! The parameters of a block (spec/00_scope.md R6, spec/10_state.md R11): no step writes them. -/

namespace Sys2Proof.Machine

/-- The two ways a meaning ends: the instruction is accepted, after at most writes of `CAP`, `LEN` and `BUF`, or it is
a protocol violation. No meaning faults or refuses. -/
theorem exec_cases (i : Instr) (s : State) :
    (∃ cap len buf kind acc msg key,
        exec i s = .next (({ s with cap := cap, len := len, buf := buf } : State).accept i kind acc msg key)) ∨
      ∃ st, exec i s = .next (s.raiseViolation st i) := by
  cases i with
  | decl len seq ignored => exact .inl ⟨_, _, _, _, _, _, _, execDecl_eq len seq ignored s⟩
  | eom pad seq ignored => exact .inl ⟨_, _, _, _, _, _, _, execEom_eq pad seq ignored s⟩
  | data value seq ignored =>
    obtain ⟨-, ignores⟩ | ⟨-, completes⟩ | ⟨-, appends⟩ := execData_cases value seq ignored s
    · exact .inl ⟨_, _, _, _, _, _, _, ignores⟩
    · exact .inl ⟨_, _, _, _, _, _, _, completes⟩
    · exact .inl ⟨_, _, _, _, _, _, _, appends⟩
  | invalidMetadataType code payload seq ignored =>
    exact .inr ⟨_, execInvalidMetadataType_eq code payload seq ignored s⟩
  | invalidDataType code payload seq ignored => exact .inr ⟨_, execInvalidDataType_eq code payload seq ignored s⟩
  | key code vk ctrl alt shift win seq ignored =>
    exact .inl ⟨_, _, _, _, _, _, _, execKey_eq code vk ctrl alt shift win seq ignored s⟩

/-- No meaning writes the parameters, the inputs or the tick. -/
theorem exec_params_inputs_tick {i : Instr} {s t : State} (h : exec i s = .next t) :
    t.params = s.params ∧ t.inputs = s.inputs ∧ t.tick = s.tick := by
  obtain ⟨cap, len, buf, kind, acc, msg, key, accepted⟩ | ⟨st, violates⟩ := exec_cases i s
  · cases accepted.symm.trans h
    simp
  · cases violates.symm.trans h
    simp

/-- No sample writes the parameters, the inputs or the tick, halted, dropped or executed (R125). -/
theorem sampleStep_params_inputs_tick {raw : Word} {s t : State} (h : sampleStep raw s = .next t) :
    t.params = s.params ∧ t.inputs = s.inputs ∧ t.tick = s.tick := by
  obtain ⟨-, halted⟩ | ⟨-, -, dropped⟩ | ⟨-, i, -, executed⟩ := sampleStep_cases raw s
  · cases halted.symm.trans h
    simp
  · cases dropped.symm.trans h
    simp
  · exact exec_params_inputs_tick (executed.symm.trans h)

/-- Settles O37. The moment and the tick are taken before the ports are looked at (`State.tookInput`); what the block
then does, a reset included, writes none of the three fields. -/
theorem parametersAreFixed : Obligations.ParametersAreFixed := by
  intro s t h
  obtain ⟨-, ⟨noInputs, rfl⟩ | ⟨p, rest, inputs, moment⟩⟩ := step_cases h
  · simp [noInputs]
  · obtain ⟨-, rfl⟩ | ⟨-, -, rfl⟩ | ⟨-, -, sample⟩ := moment
    · simp [inputs]
    · simp [inputs]
    · simpa [inputs] using sampleStep_params_inputs_tick sample

end Sys2Proof.Machine
end

section
/-! The state of a block (spec/10_state.md): what its registers and flags hold, which samples write them, and what no
sample can see of them. -/

namespace Sys2Proof.Machine

/-! ## The codec: which instruction a sample is -/

/-- The class of a sample belongs to the layout of the profile (R56, R57). -/
theorem classify_layout (P : Profile) (raw : Word) : (classify P raw).layout = P.kind := by
  unfold classify
  cases P.kind with
  | b => rfl
  | a => dsimp only; split_ifs <;> rfl

theorem decode_layout {P : Profile} {raw : Word} {i : Instr} (good : decode P raw = .ok i) : i.layout = P.kind :=
  (decode_eq_ok_iff.mp good).2 ▸ classify_layout P raw

/-- The pseudocode of R82 on a sample the decoder drops. -/
theorem decodeFrame_of_mismatch {P : Profile} {raw : Word} (bad : decode P raw = .error .checksumMismatch) :
    decodeFrame P raw = .error .checksumMismatch := by
  have invalid : ¬ (computed P raw).setWidth 32 = P.read raw P.csum := by
    rw [← checksumValid_iff, decode_eq_error_iff.mp bad]
    exact Bool.false_ne_true
  exact if_pos invalid

/-- The pseudocode of R82 on a sample that decodes: the frame, or the rejection, of its class. -/
theorem decodeFrame_of_decoded {P : Profile} {raw : Word} {i : Instr} (good : decode P raw = .ok i) :
    decodeFrame P raw = i.frame := by
  obtain ⟨valid, rfl⟩ := decode_eq_ok_iff.mp good
  have passes : decodeFrame P raw = _ := if_neg (not_not.mpr (checksumValid_iff.mp valid))
  rw [passes]
  unfold classify
  cases P.kind with
  | b => rfl
  | a => dsimp only; split_ifs <;> rfl

/-! ## What a decoded instruction does to the state -/

/-- All that executing an instruction can do, one case for each class and for each branch of DATA. -/
inductive Executed (s : State) : Instr → State → Prop
  | declared (len : Byte) (seq ignored : Word) :
      Executed s (.decl len seq ignored)
        (({ s with cap := len, len := 0 } : State).accept (.decl len seq ignored) .decl .declared none none)
  | terminated (pad : Byte) (seq ignored : Word) :
      Executed s (.eom pad seq ignored)
        (({ s with cap := 0, len := 0 } : State).accept (.eom pad seq ignored) .eom .terminated (some s.gathered) none)
  | ignored (value : Byte) (seq ignored : Word) (noRoom : s.cap.toNat ≤ s.len.toNat) :
      Executed s (.data value seq ignored) (s.accept (.data value seq ignored) .data .ignored none none)
  | completed (value : Byte) (seq ignored : Word) (last : s.len.toNat + 1 = s.cap.toNat) :
      Executed s (.data value seq ignored)
        (({ s with buf := s.buf.write s.len.toNat value, cap := 0, len := 0 } : State).accept
          (.data value seq ignored) .data .completed (some (s.gathered ++ [value])) none)
  | appended (value : Byte) (seq ignored : Word) (room : s.len.toNat + 1 < s.cap.toNat) :
      Executed s (.data value seq ignored)
        (({ s with buf := s.buf.write s.len.toNat value, len := s.len + 1 } : State).accept
          (.data value seq ignored) .data .appended none none)
  | invalidMetadata (code : BitVec 4) (payload : Byte) (seq ignored : Word) :
      Executed s (.invalidMetadataType code payload seq ignored)
        (s.raiseViolation .invalidMetadataType (.invalidMetadataType code payload seq ignored))
  | invalidData (code : BitVec 4) (payload : Byte) (seq ignored : Word) :
      Executed s (.invalidDataType code payload seq ignored)
        (s.raiseViolation .invalidDataType (.invalidDataType code payload seq ignored))
  | key (code : Byte) (vk ctrl alt shift win : Bool) (seq ignored : Word) :
      Executed s (.key code vk ctrl alt shift win seq ignored)
        (s.accept (.key code vk ctrl alt shift win seq ignored) .key .none none
          (some ⟨code, vk, ctrl, alt, shift, win⟩))

/-- Every instruction completes, in one of these ways. -/
theorem exists_executed (i : Instr) (s : State) : ∃ t, exec i s = .next t ∧ Executed s i t := by
  cases i with
  | decl len seq ignored => exact ⟨_, execDecl_eq len seq ignored s, .declared len seq ignored⟩
  | eom pad seq ignored => exact ⟨_, execEom_eq pad seq ignored s, .terminated pad seq ignored⟩
  | data value seq ignored =>
    obtain ⟨noRoom, ignores⟩ | ⟨last, completes⟩ | ⟨room, appends⟩ := execData_cases value seq ignored s
    · exact ⟨_, ignores, .ignored value seq ignored noRoom⟩
    · exact ⟨_, completes, .completed value seq ignored last⟩
    · exact ⟨_, appends, .appended value seq ignored room⟩
  | invalidMetadataType code payload seq ignored =>
    exact ⟨_, execInvalidMetadataType_eq code payload seq ignored s, .invalidMetadata code payload seq ignored⟩
  | invalidDataType code payload seq ignored =>
    exact ⟨_, execInvalidDataType_eq code payload seq ignored s, .invalidData code payload seq ignored⟩
  | key code vk ctrl alt shift win seq ignored =>
    exact ⟨_, execKey_eq code vk ctrl alt shift win seq ignored s, .key code vk ctrl alt shift win seq ignored⟩

theorem executed_of_exec {i : Instr} {s t : State} (h : exec i s = .next t) : Executed s i t := by
  obtain ⟨u, executes, executed⟩ := exists_executed i s
  cases executes.symm.trans h
  exact executed

/-- All that a sample which answers a next state can have done, in the order of R125. -/
theorem sampleStep_next {raw : Word} {s t : State} (h : sampleStep raw s = .next t) :
    s.halt = true ∧ t = s.haltedReport raw ∨
      s.halt = false ∧ decode s.params.profile raw = .error .checksumMismatch ∧ t = s.dropReport raw ∨
      s.halt = false ∧ ∃ i, decode s.params.profile raw = .ok i ∧ Executed s i t := by
  obtain ⟨halted, eq⟩ | ⟨running, bad, eq⟩ | ⟨running, i, good, eq⟩ := sampleStep_cases raw s
  · cases eq.symm.trans h
    exact .inl ⟨halted, rfl⟩
  · cases eq.symm.trans h
    exact .inr (.inl ⟨running, bad, rfl⟩)
  · exact .inr (.inr ⟨running, i, good, executed_of_exec (eq.symm.trans h)⟩)

/-- The step of an offered sample is the transaction of that sample (R115). -/
theorem State.Offered.step_eq {s : State} {raw : Word} {rest : List InPorts} (offered : s.Offered raw rest) :
    step s = sampleStep raw (s.tookInput rest) := by
  rw [step_of_inputs offered.params offered.inputs]
  exact onPorts_sample rfl rfl _

/-! ## Reset values (R24) -/

/-- Settles O41, by the definition of `State.resetWith`. -/
theorem resetValues : Obligations.ResetValues := fun _ => ⟨rfl, rfl, rfl, rfl, rfl⟩

/-- A block with every register and flag cleared and no result meets the invariant; reset makes one. -/
theorem State.Inv.of_cleared {s : State} (params : s.params.WF) (cap : s.cap = 0) (len : s.len = 0) (buf : s.buf = [])
    (viol : s.viol = false) (halt : s.halt = false) (result : s.result = none) : s.Inv where
  params := params
  phase := .inr ⟨cap, len⟩
  buf := buf ▸ Memory.wf_nil
  haltViol := by simp [halt]
  haltPolicy := by simp [halt]
  layoutB _ := ⟨cap, len, buf, viol, halt⟩
  report := by simp [result]

/-- Settles O39, by the values of R24. -/
theorem resetMeetsTheInvariant : Obligations.ResetMeetsTheInvariant :=
  fun _ params => .of_cleared params rfl rfl rfl rfl rfl rfl

/-! ## The phase of the reassembler (R16) -/

theorem State.phaseOk_iff {s : State} :
    s.phaseOk ↔ s.len.toNat < s.cap.toNat ∨ s.cap.toNat = 0 ∧ s.len.toNat = 0 := by
  simp [State.phaseOk, State.accum, State.idle, BitVec.lt_def, BitVec.toNat_eq]

/-- Executing an instruction keeps the phase: an accepted DECL starts one, a DATA that does not complete the message
leaves `LEN < CAP`, a completed or terminated message ends it. -/
theorem Executed.phaseOk {i : Instr} {s t : State} (h : Executed s i t) (phase : s.phaseOk) : t.phaseOk := by
  cases h with
  | declared => exact State.phaseOk_iff.mpr ((Nat.eq_zero_or_pos _).symm.imp_right fun empty => ⟨empty, rfl⟩)
  | terminated | completed => exact .inr ⟨rfl, rfl⟩
  | appended value seq ignored room =>
    refine .inl ?_
    show s.len + 1 < s.cap
    bv_omega
  | ignored | invalidMetadata | invalidData | key => exact phase

theorem sampleStep_phaseOk {raw : Word} {s t : State} (h : sampleStep raw s = .next t) (phase : s.phaseOk) :
    t.phaseOk := by
  obtain ⟨-, rfl⟩ | ⟨-, -, rfl⟩ | ⟨-, i, -, executed⟩ := sampleStep_next h
  · exact phase
  · exact phase
  · exact executed.phaseOk phase

theorem step_phaseOk {s t : State} (h : step s = .next t) (phase : s.phaseOk) : t.phaseOk := by
  obtain ⟨-, ⟨-, rfl⟩ | ⟨p, rest, -, ⟨-, rfl⟩ | ⟨-, -, rfl⟩ | ⟨-, -, sample⟩⟩⟩ := step_cases h
  · exact phase
  · exact .inr ⟨rfl, rfl⟩
  · exact phase
  · exact sampleStep_phaseOk sample phase

/-- Settles O38: reset clears both registers, and every sample keeps the phase by the cases of `Executed`. -/
theorem phaseIsKept : Obligations.PhaseIsKept := by
  refine ⟨fun p => .inr ⟨rfl, rfl⟩, fun s phase => ?_⟩
  have bounds := State.phaseOk_iff.mp phase
  have := s.cap.isLt
  refine ⟨?_, by omega, ?_, fun t h => step_phaseOk h phase⟩
  · bv_omega
  · bv_omega

/-! ## Which samples write the registers (R13, R14, R30) -/

/-- The register writes of a step from `s` to `t` that reports `acc`. -/
structure RegisterWrites (s t : State) (acc : Acc) : Prop where
  cap : t.cap ≠ s.cap → acc = .declared ∨ acc = .completed ∨ acc = .terminated
  len : t.len ≠ s.len → acc = .declared ∨ acc = .appended ∨ acc = .completed ∨ acc = .terminated
  buf : ∀ i, t.buf.read i ≠ s.buf.read i → i = s.len.toNat ∧ (acc = .appended ∨ acc = .completed)

theorem RegisterWrites.of_kept {s t : State} {acc : Acc} (cap : t.cap = s.cap) (len : t.len = s.len)
    (buf : t.buf = s.buf) : RegisterWrites s t acc :=
  ⟨absurd cap, absurd len, fun i changed => absurd (congrArg (Memory.read · i) buf) changed⟩

/-- Only the byte at the index written reads otherwise after a write. -/
theorem Memory.eq_of_read_write_ne {m : Memory} {i j : Nat} {v : Byte}
    (h : (m.write i v).read j ≠ m.read j) : j = i := by
  rw [Memory.read_write] at h
  by_contra other
  exact h (if_neg other)

theorem Executed.registerWrites {i : Instr} {s t : State} (h : Executed s i t) :
    ∃ r, t.result = some r ∧ RegisterWrites s t r.acc := by
  cases h with
  | declared => exact ⟨_, rfl, fun _ => .inl rfl, fun _ => .inl rfl, fun _ changed => absurd rfl changed⟩
  | terminated =>
    exact ⟨_, rfl, fun _ => .inr (.inr rfl), fun _ => .inr (.inr (.inr rfl)), fun _ changed => absurd rfl changed⟩
  | completed =>
    exact ⟨_, rfl, fun _ => .inr (.inl rfl), fun _ => .inr (.inr (.inl rfl)),
      fun _ changed => ⟨Memory.eq_of_read_write_ne changed, .inr rfl⟩⟩
  | appended =>
    exact ⟨_, rfl, fun changed => absurd rfl changed, fun _ => .inr (.inl rfl),
      fun _ changed => ⟨Memory.eq_of_read_write_ne changed, .inl rfl⟩⟩
  | ignored | invalidMetadata | invalidData | key => exact ⟨_, rfl, .of_kept rfl rfl rfl⟩

theorem sampleStep_registerWrites {raw : Word} {s t : State} (h : sampleStep raw s = .next t) :
    ∃ r, t.result = some r ∧ RegisterWrites s t r.acc := by
  obtain ⟨-, rfl⟩ | ⟨-, -, rfl⟩ | ⟨-, i, -, executed⟩ := sampleStep_next h
  · exact ⟨_, rfl, .of_kept rfl rfl rfl⟩
  · exact ⟨_, rfl, .of_kept rfl rfl rfl⟩
  · exact executed.registerWrites

/-- Settles O34. Looking at the ports writes no register, so the writes of the step are those of its sample. -/
theorem registerWriters : Obligations.RegisterWriters := by
  intro s raw rest t r offered h result
  obtain ⟨r', result', writes⟩ := sampleStep_registerWrites (offered.step_eq.symm.trans h)
  cases Option.some.inj (result'.symm.trans result)
  exact ⟨writes.cap, writes.len, writes.buf⟩

/-! ## The flags (R19, R20, R110) -/

theorem haltAfterViolation_iff {policy : ViolationPolicy} {halt : Bool} :
    haltAfterViolation policy halt = true ↔ halt = true ∨ policy = .halt := by
  cases policy <;> simp [haltAfterViolation]

/-- A running block's sample that decodes is a protocol violation when its instruction is of a rejected class. -/
theorem State.violates_iff_of_decoded {s : State} {raw : Word} {i : Instr} (running : s.halt = false)
    (good : decode s.params.profile raw = .ok i) :
    s.Violates raw ↔ i.frame = .error .invalidMetadataType ∨ i.frame = .error .invalidDataType := by
  rw [State.Violates, decodeFrame_of_decoded good]
  exact and_iff_right running

theorem State.not_violates_of_mismatch {s : State} {raw : Word}
    (bad : decode s.params.profile raw = .error .checksumMismatch) : ¬ s.Violates raw := by
  rw [State.Violates, decodeFrame_of_mismatch bad]
  simp

/-- The flags after a sample that decodes. -/
theorem Executed.flags_iff {i : Instr} {s t : State} {raw : Word} (h : Executed s i t) (running : s.halt = false)
    (good : decode s.params.profile raw = .ok i) :
    (t.viol = true ↔ s.viol = true ∨ s.Violates raw) ∧
      (t.halt = true ↔ s.halt = true ∨ s.Violates raw ∧ s.params.policy = .halt) := by
  rw [State.violates_iff_of_decoded running good]
  cases h with
  | invalidMetadata | invalidData => simp [Instr.frame, haltAfterViolation_iff]
  | declared | terminated | ignored | completed | appended | key => simp [Instr.frame]

theorem sampleStep_flags_iff {raw : Word} {s t : State} (h : sampleStep raw s = .next t) :
    (t.viol = true ↔ s.viol = true ∨ s.Violates raw) ∧
      (t.halt = true ↔ s.halt = true ∨ s.Violates raw ∧ s.params.policy = .halt) := by
  obtain ⟨halted, rfl⟩ | ⟨-, bad, rfl⟩ | ⟨running, i, good, executed⟩ := sampleStep_next h
  · simp [State.Violates, halted]
  · simp [State.not_violates_of_mismatch bad]
  · exact executed.flags_iff running good

/-- Settles O28. Looking at the ports changes neither the flags nor what the sample violates. -/
theorem flagsRecordViolations : Obligations.FlagsRecordViolations := by
  intro s raw rest t offered h
  exact sampleStep_flags_iff (s := s.tookInput rest) (offered.step_eq.symm.trans h)

/-! ## Layout B uses no register (R22) -/

/-- KEY is the only class of Layout B. -/
theorem Instr.eq_key_of_layout {i : Instr} (h : i.layout = .b) :
    ∃ code vk ctrl alt shift win seq ignored, i = .key code vk ctrl alt shift win seq ignored := by
  cases i with
  | key code vk ctrl alt shift win seq ignored => exact ⟨code, vk, ctrl, alt, shift, win, seq, ignored, rfl⟩
  | decl | eom | data | invalidMetadataType | invalidDataType => cases h

/-- A Layout B sample only presents a result, the same one whatever the registers hold. -/
theorem sampleStep_layoutB {s : State} (kind : s.params.profile.kind = .b) (raw : Word) :
    ∃ r : Report, ∀ (cap len : Byte) (buf : Memory),
      sampleStep raw { s with cap := cap, len := len, buf := buf } =
        .next { s with cap := cap, len := len, buf := buf, result := some r } := by
  obtain ⟨halted, -⟩ | ⟨running, bad, -⟩ | ⟨running, i, good, -⟩ := sampleStep_cases raw s
  · exact ⟨⟨.halted, .decl, .none, raw.setWidth 24, 0, none, none, s.viol, s.halt⟩,
      fun cap len buf => sampleStep_halted (s := { s with cap := cap, len := len, buf := buf }) halted raw⟩
  · exact ⟨⟨.checksumMismatch, .decl, .none, raw.setWidth 24, computed s.params.profile raw, none, none, s.viol,
        s.halt⟩,
      fun cap len buf => sampleStep_mismatch (s := { s with cap := cap, len := len, buf := buf }) running bad⟩
  · obtain ⟨code, vk, ctrl, alt, shift, win, seq, ignored, rfl⟩ :=
      Instr.eq_key_of_layout ((decode_layout good).trans kind)
    exact ⟨s.okReport (.key code vk ctrl alt shift win seq ignored) .key .none none
        (some ⟨code, vk, ctrl, alt, shift, win⟩),
      fun cap len buf => sampleStep_decoded (s := { s with cap := cap, len := len, buf := buf }) running good⟩

/-- Settles O36: the first clause is `sampleStep_layoutB` at the registers of `s`, the second at any others. -/
theorem layoutBUsesNoRegister : Obligations.LayoutBUsesNoRegister := by
  intro s raw rest t offered layout h
  obtain ⟨r, presents⟩ := sampleStep_layoutB (s := s.tookInput rest) (offered.params.2.trans layout) raw
  cases (presents s.cap s.len s.buf).symm.trans (offered.step_eq.symm.trans h)
  refine ⟨rfl, fun cap len buf => ?_⟩
  have offered' : State.Offered { s with cap := cap, len := len, buf := buf } raw rest :=
    ⟨offered.params, offered.inputs⟩
  exact offered'.step_eq.trans (presents cap len buf)

/-! ## The invariant of a running block -/

/-- The invariant does not need the result: a block that presents none keeps it. -/
theorem State.Inv.wait {s : State} (h : s.Inv) : s.wait.Inv where
  params := h.params
  phase := h.phase
  buf := h.buf
  haltViol := h.haltViol
  haltPolicy := h.haltPolicy
  layoutB := h.layoutB
  report := by simp

theorem State.Inv.tookInput {s : State} (h : s.Inv) (rest : List InPorts) : (s.tookInput rest).Inv where
  params := h.params
  phase := h.phase
  buf := h.buf
  haltViol := h.haltViol
  haltPolicy := h.haltPolicy
  layoutB := h.layoutB
  report r presented := by
    obtain ⟨rejected, oneOutput, msgLength, viol, halt⟩ := h.report r presented
    exact ⟨rejected, oneOutput, msgLength, viol, halt⟩

/-- Presenting a result shaped as R107 and R108 say keeps the invariant; the result shown before does not matter. -/
theorem State.Inv.present {s : State} (h : s.wait.Inv) {st : Status} {kind : Kind} {acc : Acc} {f : FrameBits}
    {c : Byte} {msg : Option (List Byte)} {key : Option KeyRecord}
    (rejected : st ≠ .ok → kind = .decl ∧ acc = .none ∧ msg = none ∧ key = none) (oneOutput : msg = none ∨ key = none)
    (msgLength : ∀ m, msg = some m → m.length ≤ bufDepth) : (s.present st kind acc f c msg key).Inv where
  params := h.params
  phase := h.phase
  buf := h.buf
  haltViol := h.haltViol
  haltPolicy := h.haltPolicy
  layoutB := h.layoutB
  report := by
    rintro r ⟨⟩
    exact ⟨rejected, oneOutput, msgLength, rfl, rfl⟩

theorem State.Inv.present_rejected {s : State} (h : s.wait.Inv) (st : Status) (f : FrameBits) (c : Byte) :
    (s.present st .decl .none f c none none).Inv :=
  .present h (fun _ => ⟨rfl, rfl, rfl, rfl⟩) (.inl rfl) (by simp)

theorem State.Inv.accept {s : State} (h : s.wait.Inv) {i : Instr} {kind : Kind} {acc : Acc} {msg : Option (List Byte)}
    {key : Option KeyRecord} (oneOutput : msg = none ∨ key = none)
    (msgLength : ∀ m, msg = some m → m.length ≤ bufDepth) : (s.accept i kind acc msg key).Inv :=
  .present h (fun rejected => absurd rfl rejected) oneOutput msgLength

/-- A Layout A block may write its registers, within the phase and the canonical form. -/
theorem State.Inv.setRegisters {s : State} (h : s.Inv) (layoutA : s.params.layout = .a) {cap len : Byte} {buf : Memory}
    (phase : ({ s with cap := cap, len := len, buf := buf } : State).phaseOk) (wf : buf.wf) :
    ({ s with cap := cap, len := len, buf := buf } : State).wait.Inv where
  params := h.params
  phase := phase
  buf := wf
  haltViol := h.haltViol
  haltPolicy := h.haltPolicy
  layoutB := by simp [layoutA]
  report := by simp

/-- A Layout A block may raise its flags as R110 says. -/
theorem State.Inv.setViolation {s : State} (h : s.Inv) (layoutA : s.params.layout = .a) : s.setViolation.wait.Inv where
  params := h.params
  phase := h.phase
  buf := h.buf
  haltViol _ := rfl
  haltPolicy set := (haltAfterViolation_iff.mp set).elim h.haltPolicy id
  layoutB := by simp [layoutA]
  report := by simp

theorem State.length_gathered (s : State) : s.gathered.length = s.len.toNat := by simp [State.gathered]

/-- While a message is open there is an index of BUF for its next byte (R30). -/
theorem State.len_lt_bufDepth {s : State} (h : s.len.toNat < s.cap.toNat) : s.len.toNat < bufDepth :=
  lt_of_lt_of_le h (Nat.le_of_lt_succ s.cap.isLt)

/-- Executing an instruction of the block's own layout keeps the invariant. -/
theorem Executed.inv {i : Instr} {s t : State} (h : Executed s i t) (inv : s.Inv) (own : i.layout = s.params.layout) :
    t.Inv := by
  have phase := h.phaseOk inv.phase
  cases h with
  | declared => exact .accept (inv.setRegisters own.symm phase inv.buf) (.inl rfl) (by simp)
  | terminated =>
    refine .accept (inv.setRegisters own.symm phase inv.buf) (.inr rfl) ?_
    rintro m ⟨⟩
    rw [State.length_gathered]
    exact Nat.le_of_lt_succ s.len.isLt
  | ignored => exact .accept inv.wait (.inl rfl) (by simp)
  | completed value seq ignored last =>
    have index : s.len.toNat < bufDepth := State.len_lt_bufDepth (by omega)
    refine .accept (inv.setRegisters own.symm phase (Memory.wf_write inv.buf index value)) (.inr rfl) ?_
    rintro m ⟨⟩
    rw [List.length_append, State.length_gathered]
    exact index
  | appended value seq ignored room =>
    have index : s.len.toNat < bufDepth := State.len_lt_bufDepth (by omega)
    exact .accept (inv.setRegisters own.symm phase (Memory.wf_write inv.buf index value)) (.inl rfl) (by simp)
  | invalidMetadata | invalidData => exact .present_rejected (inv.setViolation own.symm) _ _ _
  | key => exact .accept inv.wait (.inl rfl) (by simp)

theorem sampleStep_inv {raw : Word} {s t : State} (h : sampleStep raw s = .next t) (inv : s.Inv) : t.Inv := by
  obtain ⟨-, rfl⟩ | ⟨-, -, rfl⟩ | ⟨-, i, good, executed⟩ := sampleStep_next h
  · exact .present_rejected inv.wait _ _ _
  · exact .present_rejected inv.wait _ _ _
  · exact executed.inv inv ((decode_layout good).trans inv.params.2)

/-- Settles O40: a moment without a sample withdraws the result, a reset clears every field the invariant speaks of, and
a sample keeps it by the cases of `sampleStep_next`. -/
theorem stepKeepsTheInvariant : Obligations.StepKeepsTheInvariant := by
  intro s t inv h
  obtain ⟨params, ⟨-, rfl⟩ | ⟨p, rest, -, ⟨-, rfl⟩ | ⟨-, -, rfl⟩ | ⟨-, -, sample⟩⟩⟩ := step_cases h
  · exact (inv.tookInput []).wait
  · exact .of_cleared params rfl rfl rfl rfl rfl rfl
  · exact (inv.tookInput rest).wait
  · exact sampleStep_inv sample (inv.tookInput rest)

/-! ## The bytes at and above `LEN` (R15, R25) -/

/-- The bytes a message is collected from are the same. -/
theorem State.Agree.bytes_below_len {s t : State} (h : s.Agree t) :
    (List.range s.len.toNat).map s.buf.read = (List.range t.len.toNat).map t.buf.read := by
  rw [← h.len]
  exact List.map_congr_left fun i hi => h.buf i (List.mem_range.mp hi)

/-- With `LEN` cleared no byte of BUF is below it. -/
theorem State.Agree.emptied {s t : State} (h : s.Agree t) (cap : Byte) (m m' : Memory) :
    ({ s with cap := cap, len := 0, buf := m } : State).Agree { t with cap := cap, len := 0, buf := m' } where
  cap := rfl
  len := rfl
  buf i below := absurd below (Nat.not_lt_zero i)
  viol := h.viol
  halt := h.halt
  params := h.params
  inputs := h.inputs

/-- The same byte written at `LEN` agrees, and so does every byte below. -/
theorem State.Agree.appended {s t : State} (h : s.Agree t) (value : Byte) :
    ({ s with buf := s.buf.write s.len.toNat value, len := s.len + 1 } : State).Agree
      { t with buf := t.buf.write t.len.toNat value, len := t.len + 1 } where
  cap := h.cap
  len := congrArg (· + 1) h.len
  buf i below := by
    rw [Memory.read_write, Memory.read_write, ← h.len]
    split_ifs with at_len
    · rfl
    · refine h.buf i ?_
      have : i < (s.len + 1).toNat := below
      rw [BitVec.toNat_add] at this
      have one : (1 : Byte).toNat = 1 := rfl
      omega
  viol := h.viol
  halt := h.halt
  params := h.params
  inputs := h.inputs

theorem State.Agree.setViolation {s t : State} (h : s.Agree t) : s.setViolation.Agree t.setViolation where
  cap := h.cap
  len := h.len
  buf := h.buf
  viol := rfl
  halt := by rw [State.setViolation_halt, State.setViolation_halt, h.params, h.halt]
  params := h.params
  inputs := h.inputs

theorem State.Agree.tookInput {s t : State} (h : s.Agree t) (rest : List InPorts) :
    (s.tookInput rest).Agree (t.tookInput rest) :=
  ⟨h.cap, h.len, h.buf, h.viol, h.halt, h.params, rfl⟩

theorem State.Agree.wait {s t : State} (h : s.Agree t) : OutcomeAgree (.next s.wait) (.next t.wait) :=
  ⟨⟨h.cap, h.len, h.buf, h.viol, h.halt, h.params, h.inputs⟩, rfl⟩

/-- States that agree and present the same values present the same result. -/
theorem State.Agree.present {s t : State} (h : s.Agree t) (st : Status) (kind : Kind) (acc : Acc) (f : FrameBits)
    (c : Byte) (msg : Option (List Byte)) (key : Option KeyRecord) :
    OutcomeAgree (.next (s.present st kind acc f c msg key)) (.next (t.present st kind acc f c msg key)) :=
  ⟨⟨h.cap, h.len, h.buf, h.viol, h.halt, h.params, h.inputs⟩, by simp [h.viol, h.halt]⟩

theorem State.Agree.accept {s t : State} (h : s.Agree t) (i : Instr) (kind : Kind) (acc : Acc)
    (msg : Option (List Byte)) (key : Option KeyRecord) :
    OutcomeAgree (.next (s.accept i kind acc msg key)) (.next (t.accept i kind acc msg key)) := by
  unfold State.accept
  rw [h.params]
  exact h.present ..

theorem State.Agree.raiseViolation {s t : State} (h : s.Agree t) (st : Status) (i : Instr) :
    OutcomeAgree (.next (s.raiseViolation st i)) (.next (t.raiseViolation st i)) := by
  unfold State.raiseViolation
  rw [h.params]
  exact h.setViolation.present ..

/-- The branch DATA takes depends on `CAP` and `LEN` only, and a completed message on the bytes below `LEN`. -/
theorem State.Agree.execData {s t : State} (h : s.Agree t) (value : Byte) (seq ignored : Word) :
    OutcomeAgree (execData value seq ignored s) (execData value seq ignored t) := by
  have cap := congrArg BitVec.toNat h.cap
  have len := congrArg BitVec.toNat h.len
  obtain ⟨noRoom, eq⟩ | ⟨last, eq⟩ | ⟨room, eq⟩ := execData_cases value seq ignored s
  · rw [eq, execData_ignored (by omega)]
    exact h.accept ..
  · rw [eq, execData_completed (by omega), h.bytes_below_len]
    exact (h.emptied ..).accept ..
  · rw [eq, execData_appended (by omega)]
    exact (h.appended value).accept ..

theorem State.Agree.exec {s t : State} (h : s.Agree t) (i : Instr) : OutcomeAgree (exec i s) (exec i t) := by
  cases i with
  | decl len seq ignored => exact (h.emptied len s.buf t.buf).accept ..
  | eom pad seq ignored =>
    show OutcomeAgree (execEom pad seq ignored s) (execEom pad seq ignored t)
    rw [execEom_eq, execEom_eq, h.bytes_below_len]
    exact (h.emptied 0 s.buf t.buf).accept ..
  | data value seq ignored => exact h.execData value seq ignored
  | invalidMetadataType => exact h.raiseViolation ..
  | invalidDataType => exact h.raiseViolation ..
  | key => exact h.accept ..

theorem State.Agree.sampleStep {s t : State} (h : s.Agree t) (raw : Word) :
    OutcomeAgree (sampleStep raw s) (sampleStep raw t) := by
  obtain ⟨halted, eq⟩ | ⟨running, bad, eq⟩ | ⟨running, i, good, eq⟩ := sampleStep_cases raw s
  · rw [eq, sampleStep_halted (h.halt ▸ halted)]
    exact h.present ..
  · rw [eq, sampleStep_mismatch (h.halt ▸ running) (h.params ▸ bad), State.dropReport, State.dropReport, h.params]
    exact h.present ..
  · rw [eq, sampleStep_decoded (h.halt ▸ running) (h.params ▸ good)]
    exact h.exec i

theorem State.Agree.onPorts {s t : State} (h : s.Agree t) (p : InPorts) : OutcomeAgree (onPorts p s) (onPorts p t) := by
  by_cases hr : p.rst = true
  · rw [onPorts_reset hr, onPorts_reset hr]
    exact ⟨⟨rfl, rfl, fun _ _ => rfl, rfl, rfl, h.params, h.inputs⟩, rfl⟩
  have hr : p.rst = false := by simpa using hr
  by_cases hv : p.inValid = true
  · rw [onPorts_sample hr hv, onPorts_sample hr hv]
    exact h.sampleStep p.inData
  · have hv : p.inValid = false := by simpa using hv
    rw [onPorts_idle hr hv, onPorts_idle hr hv]
    exact h.wait

/-- Settles O44. The parameters and the inputs agree, so both blocks refuse, wait, or look at the same moment of the
ports. -/
theorem unreadBytesNeverMatter : Obligations.UnreadBytesNeverMatter := by
  intro s t h
  by_cases wf : s.params.WF
  · have wf' : t.params.WF := h.params ▸ wf
    cases inputs : s.inputs with
    | nil =>
      rw [step_of_noInputs wf inputs, step_of_noInputs wf' (h.inputs ▸ inputs)]
      exact (h.tookInput []).wait
    | cons p rest =>
      rw [step_of_inputs wf inputs, step_of_inputs wf' (h.inputs ▸ inputs)]
      exact (h.tookInput rest).onPorts p
  · rw [step_of_illFormed wf, step_of_illFormed (h.params ▸ wf)]
    rfl

end Sys2Proof.Machine
end

section
/-! The encoding (spec/30_encoding.md): the decoder and the encoder are inverse to each other under every well-formed
profile. Both directions go field by field: the fields of a profile share no bit (W2 of R54), so a sample is its fields
in their places and the bits no field covers. -/

namespace Sys2Proof

/-! ## The bits of a sample, field by field -/

/-- A field of a well-formed profile covers the bits from `lsb` up to `lsb + width`. -/
theorem FieldSpec.getLsbD_mask_iff {F : FieldSpec} (fits : F.lsb + F.width ≤ 24) {j : Nat} :
    F.mask.getLsbD j = true ↔ F.lsb ≤ j ∧ j < F.lsb + F.width := by
  simp only [FieldSpec.getLsbD_mask, Bool.and_eq_true, decide_eq_true_eq]
  omega

/-- No bit lies in two fields (W2). -/
theorem Profile.WF.field_unique {P : Profile} (wf : P.WF) {F G : FieldSpec} (hF : F ∈ P.fields) (hG : G ∈ P.fields)
    {j : Nat} (bitF : F.mask.getLsbD j = true) (bitG : G.mask.getLsbD j = true) : F = G := by
  obtain ⟨fits, disjoint, -⟩ := wf
  by_contra distinct
  have symmetric : Std.Symm fun F G : FieldSpec => F.lsb + F.width ≤ G.lsb ∨ G.lsb + G.width ≤ F.lsb :=
    ⟨fun _ _ => Or.symm⟩
  have separate := disjoint.forall hF hG distinct
  rw [FieldSpec.getLsbD_mask_iff (fits F hF).2] at bitF
  rw [FieldSpec.getLsbD_mask_iff (fits G hG).2] at bitG
  omega

/-- A placed value that fits its field has bits in that field only. -/
theorem FieldSpec.getLsbD_place_of_lt {F : FieldSpec} {v : Word} (small : v.toNat < 2 ^ F.width) (j : Nat) :
    (F.place v).getLsbD j = (F.mask.getLsbD j && v.getLsbD (j - F.lsb)) := by
  rw [FieldSpec.getLsbD_place, FieldSpec.getLsbD_mask]
  by_cases inside : j - F.lsb < F.width
  · congr 1
    rw [Bool.eq_iff_iff]
    simp only [Bool.and_eq_true, Bool.not_eq_true', decide_eq_true_eq, decide_eq_false_iff_not]
    omega
  · have zero : v.getLsbD (j - F.lsb) = false :=
      Nat.testBit_lt_two_pow (lt_of_lt_of_le small (Nat.pow_le_pow_right two_pos (not_lt.mp inside)))
    simp [zero]

/-! ## The bits of an encoded instruction -/

section EncodedBits

variable {P : Profile} {i : Instr}

/-- Every operand of a well-formed instruction fits its field (R56, R57; the lemmas of Laws/PerInstr.lean). -/
theorem fieldValue_lt (wf : P.WF) (hi : i.wellFormed P = true) {F : FieldSpec} (hF : F ∈ P.fields) :
    (i.fieldValue P F.name).toNat < 2 ^ F.width := by
  have fits : Laws.OperandFits.Statement i := by
    cases i with
    | decl => exact Laws.OperandFits.decl _ _ _
    | eom => exact Laws.OperandFits.eom _ _ _
    | data => exact Laws.OperandFits.data _ _ _
    | invalidMetadataType => exact Laws.OperandFits.invalidMetadataType _ _ _ _
    | invalidDataType => exact Laws.OperandFits.invalidDataType _ _ _ _
    | key => exact Laws.OperandFits.key _ _ _ _ _ _ _ _
  exact fits P wf hi F hF

theorem Instr.wellFormed.ignored_of_mask (hi : i.wellFormed P = true) {j : Nat} (covered : P.mask.getLsbD j = true) :
    i.ignored.getLsbD j = false := by
  obtain ⟨-, -, -, -, clear⟩ := Laws.wellFormed_iff.mp hi
  have := congrArg (BitVec.getLsbD · j) clear
  simpa [covered] using this

/-- Inside a field, the sample of an instruction holds that field's value. -/
theorem getLsbD_encode_of_field (wf : P.WF) (hi : i.wellFormed P = true) {F : FieldSpec} (hF : F ∈ P.fields) {j : Nat}
    (inside : F.mask.getLsbD j = true) :
    (encode P i).getLsbD j = (i.fieldValue P F.name).getLsbD (j - F.lsb) := by
  have place (G : FieldSpec) (hG : G ∈ P.fields) := FieldSpec.getLsbD_place_of_lt (fieldValue_lt wf hi hG) j
  have ignored : i.ignored.getLsbD j = false :=
    Instr.wellFormed.ignored_of_mask hi (P.getLsbD_mask j ▸ List.any_eq_true.mpr ⟨F, hF, inside⟩)
  rw [getLsbD_encode, ignored, Bool.or_false, Bool.eq_iff_iff, List.any_eq_true]
  constructor
  · rintro ⟨G, hG, bit⟩
    rw [place G hG, Bool.and_eq_true] at bit
    obtain ⟨insideG, bit⟩ := bit
    obtain rfl := wf.field_unique hF hG inside insideG
    exact bit
  · intro bit
    exact ⟨F, hF, by rw [place F hF, inside, bit]; rfl⟩

/-- Outside every field, the sample of an instruction holds its ignored bits. -/
theorem getLsbD_encode_of_uncovered (wf : P.WF) (hi : i.wellFormed P = true) {j : Nat}
    (uncovered : P.mask.getLsbD j = false) : (encode P i).getLsbD j = i.ignored.getLsbD j := by
  rw [Profile.getLsbD_mask, List.any_eq_false] at uncovered
  have none_placed : P.fields.any (fun F => (F.place (i.fieldValue P F.name)).getLsbD j) = false := by
    refine List.any_eq_false.mpr fun F hF => ?_
    rw [FieldSpec.getLsbD_place_of_lt (fieldValue_lt wf hi hF), Bool.and_eq_true]
    exact fun bit => uncovered F hF bit.1
  rw [getLsbD_encode, none_placed, Bool.false_or]

/-- Two samples are equal when they agree in every field and in the bits no field covers. -/
theorem Profile.WF.ext {raw raw' : Word} (wf : P.WF) (fields : ∀ F ∈ P.fields, field raw F = field raw' F)
    (uncovered : P.uncovered raw = P.uncovered raw') : raw = raw' := by
  refine BitVec.eq_of_getLsbD_eq fun j hj => ?_
  cases covered : P.mask.getLsbD j with
  | false =>
    have := congrArg (BitVec.getLsbD · j) uncovered
    simpa only [Profile.uncovered, BitVec.getLsbD_and, BitVec.getLsbD_not, covered, hj, decide_true, Bool.not_false,
      Bool.and_true] using this
  | true =>
    rw [Profile.getLsbD_mask, List.any_eq_true] at covered
    obtain ⟨F, hF, inside⟩ := covered
    rw [FieldSpec.getLsbD_mask_iff (wf.1 F hF).2] at inside
    have := congrArg (BitVec.getLsbD · (j - F.lsb)) (fields F hF)
    rw [getLsbD_field, getLsbD_field, decide_eq_true (by omega), Nat.add_sub_cancel' inside.1] at this
    simpa using this

/-- The decoder reads every field of an encoded instruction back. -/
theorem field_encode (wf : P.WF) (hi : i.wellFormed P = true) {F : FieldSpec} (hF : F ∈ P.fields) :
    field (encode P i) F = i.fieldValue P F.name := by
  refine BitVec.eq_of_getLsbD_eq fun j _ => ?_
  rw [getLsbD_field]
  by_cases inside : j < F.width
  · rw [getLsbD_encode_of_field wf hi hF ((FieldSpec.getLsbD_mask_iff (wf.1 F hF).2).mpr (by omega))]
    simp [inside]
  · have zero : (i.fieldValue P F.name).getLsbD j = false :=
      Nat.testBit_lt_two_pow
        (lt_of_lt_of_le (fieldValue_lt wf hi hF) (Nat.pow_le_pow_right two_pos (not_lt.mp inside)))
    simp [inside, zero]

theorem uncovered_encode (wf : P.WF) (hi : i.wellFormed P = true) : P.uncovered (encode P i) = i.ignored := by
  refine BitVec.eq_of_getLsbD_eq fun j hj => ?_
  simp only [Profile.uncovered, BitVec.getLsbD_and, BitVec.getLsbD_not, hj, decide_true, Bool.true_and]
  cases covered : P.mask.getLsbD j with
  | false => simp [getLsbD_encode_of_uncovered wf hi covered]
  | true => simp [Instr.wellFormed.ignored_of_mask hi covered]

end EncodedBits

/-! ## The operands a decoder reads -/

/-- The names whose values are operands: every field of the profile but its checksum. -/
def Profile.IsOperand (P : Profile) (n : FieldName) : Prop := n ∈ P.fields.map FieldSpec.name ∧ n ≠ P.csum

section Operands

variable {P : Profile} {n : FieldName}

theorem Profile.WF.isOperand_of_summed (wf : P.WF) (hn : n ∈ P.summed) : P.IsOperand n := by
  obtain ⟨-, -, ⟨-, -, unsummed, named⟩, -⟩ := wf
  exact ⟨named n hn, fun h => unsummed (h ▸ hn)⟩

/-- W5 and W6 list the names of a profile with its checksum among them; the others are the operands. -/
theorem Profile.isOperand_of_perm {before after : List FieldName} (names : (P.fields.map FieldSpec.name).Nodup)
    (perm : (P.fields.map FieldSpec.name).Perm (before ++ P.csum :: after)) (hn : n ∈ before ++ after) :
    P.IsOperand n := by
  have perm := perm.trans List.perm_middle
  obtain ⟨fresh, -⟩ := List.nodup_cons.mp (perm.nodup_iff.mp names)
  exact ⟨perm.mem_iff.mpr (List.mem_cons_of_mem _ hn), fun h => fresh (h ▸ hn)⟩

theorem Profile.WF.isOperand_a (wf : P.WF) (kind : P.kind = .a)
    (hn : n ∈ [.isMetadata, .messageType, .sequenceNumber, FieldName.payload]) : P.IsOperand n := by
  obtain ⟨-, -, ⟨names, -⟩, -, layoutA, -⟩ := wf
  exact P.isOperand_of_perm (before := [.isMetadata, .messageType, .sequenceNumber]) names (layoutA kind).1 hn

theorem Profile.WF.isOperand_b (wf : P.WF) (kind : P.kind = .b)
    (hn : n ∈ [.sequenceNumber, .keyCode, .isVirtualKey, .ctrl, .alt, .shift, FieldName.win]) : P.IsOperand n := by
  obtain ⟨-, -, ⟨names, -⟩, -, -, layoutB⟩ := wf
  exact P.isOperand_of_perm (before := [.sequenceNumber]) names (layoutB kind).1 hn

/-- The checksum sees the summed fields only (R72). -/
theorem checksumOf_congr {v v' : FieldName → Word} (same : ∀ n ∈ P.summed, v n = v' n) :
    checksumOf P v = checksumOf P v' := by
  unfold checksumOf checksumSum
  rw [List.foldr_ext _ _ 0 fun n hn acc => by rw [same n hn]]

end Operands

/-! ## Decode of encode is the instruction -/

section DecodeOfEncode

variable {P : Profile} {i : Instr}

theorem read_encode (wf : P.WF) (hi : i.wellFormed P = true) {n : FieldName} (operand : P.IsOperand n) :
    P.read (encode P i) n = i.operand n := by
  obtain ⟨named, unsummed⟩ := operand
  obtain ⟨F, hF, rfl⟩ := List.mem_map.mp named
  rw [Profile.read_of_mem wf.2.2.1.1 hF, field_encode wf hi hF, Instr.fieldValue, if_neg unsummed]

theorem Profile.WF.exists_checksumField (wf : P.WF) : ∃ F ∈ P.fields, F.name = P.csum := by
  obtain ⟨-, -, ⟨-, ⟨F, hF, name, -⟩, -⟩, -⟩ := wf
  exact ⟨F, hF, name⟩

theorem read_checksum_encode (wf : P.WF) (hi : i.wellFormed P = true) :
    P.read (encode P i) P.csum = (i.checksum P).setWidth 32 := by
  obtain ⟨F, hF, name⟩ := wf.exists_checksumField
  rw [← name, Profile.read_of_mem wf.2.2.1.1 hF, field_encode wf hi hF, Instr.fieldValue, if_pos name]

theorem computed_encode (wf : P.WF) (hi : i.wellFormed P = true) : computed P (encode P i) = i.checksum P :=
  checksumOf_congr fun _ summed => read_encode wf hi (wf.isOperand_of_summed summed)

/-- What the encoder fills in is the checksum the decoder checks (R73). -/
theorem checksumValid_encode (wf : P.WF) (hi : i.wellFormed P = true) : checksumValid P (encode P i) = true := by
  rw [checksumValid_iff, computed_encode wf hi, read_checksum_encode wf hi]

theorem decide_flagWord (b : Bool) : decide (flagWord b = 1#32) = b := by cases b <;> decide

/-- The two codes the opcode map gives to other classes (R56), on a zero-extended message type. -/
theorem typeCode_eq_iff (code : BitVec 4) :
    (code.setWidth 32 = 0#32 ↔ code = 0#4) ∧ (code.setWidth 32 = 15#32 ↔ code = 15#4) := by
  revert code
  decide

/-- The class the decoder finds is the constructor, and its operands are the instruction's (R56, R57). -/
theorem classify_encode (wf : P.WF) (hi : i.wellFormed P = true) : classify P (encode P i) = i := by
  obtain ⟨kind, typeCode, -⟩ := Laws.wellFormed_iff.mp hi
  have rest := uncovered_encode wf hi
  have readA (h : P.kind = .a) (n) (hn : n ∈ [.isMetadata, .messageType, .sequenceNumber, FieldName.payload]) :=
    read_encode wf hi (wf.isOperand_a h hn)
  have readB (h : P.kind = .b) (n)
      (hn : n ∈ [.sequenceNumber, .keyCode, .isVirtualKey, .ctrl, .alt, .shift, FieldName.win]) :=
    read_encode wf hi (wf.isOperand_b h hn)
  unfold classify
  cases i with
  | decl | eom | data =>
    have kind : P.kind = .a := kind.symm
    simp [kind, rest, readA kind, Instr.operand, Instr.ignored]
  | invalidMetadataType code =>
    have kind : P.kind = .a := kind.symm
    have codes : code ≠ 0#4 ∧ code ≠ 15#4 := by simpa [Instr.typeCodeOk] using typeCode
    simp [kind, rest, readA kind, Instr.operand, Instr.ignored, typeCode_eq_iff, codes]
  | invalidDataType code =>
    have kind : P.kind = .a := kind.symm
    have codes : code ≠ 0#4 := by simpa [Instr.typeCodeOk] using typeCode
    simp [kind, rest, readA kind, Instr.operand, Instr.ignored, typeCode_eq_iff, codes]
  | key =>
    have kind : P.kind = .b := kind.symm
    simp [kind, rest, readB kind, Instr.operand, Instr.ignored, decide_flagWord]

end DecodeOfEncode

/-- Settles O12: the encoder's checksum passes the decoder's check, and the class and operands read back. -/
theorem decodeOfEncodeIsTheInstruction : Obligations.DecodeOfEncodeIsTheInstruction := fun _ _ wf hi =>
  decode_eq_ok_iff.mpr ⟨checksumValid_encode wf hi, classify_encode wf hi⟩

/-! ## Encode of decode is the sample -/

section EncodeOfDecode

variable {P : Profile} {raw : Word} {n : FieldName}

/-- What the codec reads from a field survives the cut to the field's width and the zero-extension back (R55). -/
theorem Profile.setWidth_read {w : Nat} (width : P.width n = w) :
    ((P.read raw n).setWidth w).setWidth 32 = P.read raw n := by
  have small := P.read_lt raw n
  rw [width] at small
  refine BitVec.eq_of_toNat_eq ?_
  simp only [BitVec.toNat_setWidth]
  rw [Nat.mod_eq_of_lt small, Nat.mod_eq_of_lt (P.read raw n).isLt]

/-- A one-bit field reads 0 or 1 (R55). -/
theorem Profile.read_flag (width : P.width n = 1) : P.read raw n = 0#32 ∨ P.read raw n = 1#32 := by
  have small := P.read_lt raw n
  rw [width] at small
  bv_omega

theorem Profile.flagWord_read (width : P.width n = 1) : flagWord (decide (P.read raw n = 1#32)) = P.read raw n := by
  rcases Profile.read_flag (raw := raw) width with h | h <;> rw [h] <;> decide

theorem Profile.WF.width_a (wf : P.WF) (kind : P.kind = .a) :
    P.width .isMetadata = 1 ∧ P.width .messageType = 4 ∧ P.width .payload = 8 := (wf.2.2.2.2.1 kind).2

theorem classify_a (kind : P.kind = .a) :
    classify P raw =
      if P.read raw .isMetadata = 1 then
        if P.read raw .messageType = 0 then
          .decl ((P.read raw .payload).setWidth 8) (P.read raw .sequenceNumber) (P.uncovered raw)
        else if P.read raw .messageType = 15 then
          .eom ((P.read raw .payload).setWidth 8) (P.read raw .sequenceNumber) (P.uncovered raw)
        else
          .invalidMetadataType ((P.read raw .messageType).setWidth 4) ((P.read raw .payload).setWidth 8)
            (P.read raw .sequenceNumber) (P.uncovered raw)
      else if P.read raw .messageType = 0 then
        .data ((P.read raw .payload).setWidth 8) (P.read raw .sequenceNumber) (P.uncovered raw)
      else
        .invalidDataType ((P.read raw .messageType).setWidth 4) ((P.read raw .payload).setWidth 8)
          (P.read raw .sequenceNumber) (P.uncovered raw) := by
  simp only [classify, kind]

theorem classify_b (kind : P.kind = .b) :
    classify P raw =
      .key ((P.read raw .keyCode).setWidth 8) (decide (P.read raw .isVirtualKey = 1)) (decide (P.read raw .ctrl = 1))
        (decide (P.read raw .alt = 1)) (decide (P.read raw .shift = 1)) (decide (P.read raw .win = 1))
        (P.read raw .sequenceNumber) (P.uncovered raw) := by
  simp only [classify, kind]

@[simp] theorem classify_seq : (classify P raw).seq = P.read raw .sequenceNumber := by
  cases kind : P.kind with
  | a => rw [classify_a kind]; split_ifs <;> rfl
  | b => rw [classify_b kind]; rfl

@[simp] theorem classify_ignored : (classify P raw).ignored = P.uncovered raw := by
  cases kind : P.kind with
  | a => rw [classify_a kind]; split_ifs <;> rfl
  | b => rw [classify_b kind]; rfl

/-- The rejected classes keep a type code that is none of the other classes' (R56). -/
theorem classify_typeCodeOk (wf : P.WF) : (classify P raw).typeCodeOk = true := by
  cases kind : P.kind with
  | a =>
    have code := Profile.setWidth_read (raw := raw) (wf.width_a kind).2.1
    have codes := typeCode_eq_iff ((P.read raw .messageType).setWidth 4)
    rw [code] at codes
    rw [classify_a kind]
    split_ifs <;> simp_all [Instr.typeCodeOk]
  | b => rw [classify_b kind]; rfl

/-- Every operand of the class is what the sample's field of that name reads (R56, R57). -/
theorem operand_classify (wf : P.WF) (operand : P.IsOperand n) : (classify P raw).operand n = P.read raw n := by
  obtain ⟨named, unsummed⟩ := operand
  cases kind : P.kind with
  | a =>
    rw [classify_a kind]
    rcases Laws.layoutA_names wf kind named unsummed with rfl | ⟨rfl, width⟩ | ⟨rfl, width⟩ | ⟨rfl, width⟩
    · split_ifs <;> rfl
    · have flag := Profile.read_flag (raw := raw) width
      split_ifs <;> simp_all [Instr.operand]
    · have code := Profile.setWidth_read (raw := raw) width
      split_ifs <;> simp_all [Instr.operand]
    · have payload := Profile.setWidth_read (raw := raw) width
      split_ifs <;> exact payload
  | b =>
    rw [classify_b kind]
    rcases Laws.layoutB_names wf kind named unsummed with rfl | ⟨rfl, width⟩ | ⟨flag, width⟩
    · rfl
    · exact Profile.setWidth_read width
    · rcases flag with rfl | rfl | rfl | rfl | rfl <;> exact Profile.flagWord_read width

theorem checksum_classify (wf : P.WF) : (classify P raw).checksum P = computed P raw :=
  checksumOf_congr fun _ summed => operand_classify wf (wf.isOperand_of_summed summed)

theorem uncovered_and_mask : P.uncovered raw &&& P.mask = 0 := by
  rw [Profile.uncovered, BitVec.and_assoc, BitVec.not_and_self]
  exact BitVec.and_zero

/-- What a checksum-valid sample is classified as is an instruction the profile can spell. -/
theorem classify_wellFormed (wf : P.WF) (valid : checksumValid P raw = true) :
    (classify P raw).wellFormed P = true := by
  have checksum_lt : ((classify P raw).checksum P).toNat < 2 ^ P.width P.csum := by
    rw [checksum_classify wf, ← BitVec.toNat_setWidth_of_le (show 8 ≤ 32 by decide), checksumValid_iff.mp valid]
    exact P.read_lt raw P.csum
  refine Laws.wellFormed_iff.mpr ⟨?_, classify_typeCodeOk wf, ?_, checksum_lt, ?_⟩
  · exact Machine.classify_layout P raw
  · rw [classify_seq]; exact P.read_lt raw _
  · rw [classify_ignored]; exact uncovered_and_mask

theorem fieldValue_classify (wf : P.WF) (valid : checksumValid P raw = true) {F : FieldSpec} (hF : F ∈ P.fields) :
    (classify P raw).fieldValue P F.name = field raw F := by
  rw [← Profile.read_of_mem wf.2.2.1.1 hF, Instr.fieldValue]
  split_ifs with csum
  · rw [csum, checksum_classify wf, checksumValid_iff.mp valid]
  · exact operand_classify wf ⟨List.mem_map_of_mem hF, csum⟩

end EncodeOfDecode

/-- Settles O13: the class of a valid sample is well-formed, so its sample reads in every field as the one decoded, and
agrees with it in the bits no field covers. -/
theorem encodeOfDecodeIsTheSample : Obligations.EncodeOfDecodeIsTheSample := by
  intro P raw i wf decoded
  obtain ⟨valid, rfl⟩ := decode_eq_ok_iff.mp decoded
  have hi := classify_wellFormed wf valid
  refine ⟨hi, wf.ext (fun F hF => ?_) ?_⟩
  · rw [field_encode wf hi hF, fieldValue_classify wf valid hF]
  · rw [uncovered_encode wf hi, classify_ignored]

end Sys2Proof
end

section
/-! Bits 31 to 24 of a sample (spec/30_encoding.md R46): no field of a well-formed profile covers them, so they reach
an instruction as ignored bits only, and no meaning looks at those but to name the sample in `frame24`. -/

namespace Sys2Proof

/-- The low 24 bits of a sample. -/
def lowBits (raw : Word) : Word := raw &&& 0x00FFFFFF#32

theorem getLsbD_lowBits (raw : Word) (j : Nat) : (lowBits raw).getLsbD j = (raw.getLsbD j && decide (j < 24)) := by
  have mask : (0x00FFFFFF#32).getLsbD j = decide (j < 24) := by
    rw [show 0x00FFFFFF#32 = BitVec.ofNat 32 (2 ^ 24 - 1) from rfl, BitVec.getLsbD_ofNat, Nat.testBit_two_pow_sub_one,
      Bool.eq_iff_iff]
    simp only [Bool.and_eq_true, decide_eq_true_eq]
    omega
  rw [lowBits, BitVec.getLsbD_and, mask]

theorem setWidth_lowBits (raw : Word) : (lowBits raw).setWidth 24 = raw.setWidth 24 := by
  refine BitVec.eq_of_getLsbD_eq fun j hj => ?_
  simp only [BitVec.getLsbD_setWidth, getLsbD_lowBits, decide_eq_true hj, Bool.and_true]

section Profile

variable {P : Profile}

/-- Every field lies within bits 23 to 0 (W1). -/
theorem field_lowBits (wf : P.WF) {F : FieldSpec} (hF : F ∈ P.fields) (raw : Word) :
    field (lowBits raw) F = field raw F := by
  obtain ⟨-, fits⟩ := wf.1 F hF
  refine BitVec.eq_of_getLsbD_eq fun j _ => ?_
  rw [getLsbD_field, getLsbD_field, getLsbD_lowBits]
  by_cases inside : j < F.width
  · rw [decide_eq_true (show F.lsb + j < 24 by omega), Bool.and_true]
  · simp [inside]

theorem read_lowBits (wf : P.WF) (raw : Word) : P.read (lowBits raw) = P.read raw := by
  funext n
  unfold Profile.read
  cases found : P.find n with
  | none => rfl
  | some F => exact field_lowBits wf (Profile.find_some found).1 raw

theorem computed_lowBits (wf : P.WF) (raw : Word) : computed P (lowBits raw) = computed P raw := by
  rw [computed, computed, read_lowBits wf]

theorem checksumValid_lowBits (wf : P.WF) (raw : Word) : checksumValid P (lowBits raw) = checksumValid P raw := by
  rw [checksumValid, checksumValid, computed_lowBits wf, read_lowBits wf]

/-- The codec reads a sample through its fields only. -/
theorem decodeFrame_lowBits (wf : P.WF) (raw : Word) :
    Machine.decodeFrame P (lowBits raw) = Machine.decodeFrame P raw := by
  unfold Machine.decodeFrame
  rw [read_lowBits wf]

end Profile

/-- The instruction with other bits outside its fields. -/
def Instr.withIgnored (ignored : Word) : Instr → Instr
  | .decl len seq _ => .decl len seq ignored
  | .eom pad seq _ => .eom pad seq ignored
  | .data value seq _ => .data value seq ignored
  | .invalidMetadataType code payload seq _ => .invalidMetadataType code payload seq ignored
  | .invalidDataType code payload seq _ => .invalidDataType code payload seq ignored
  | .key code vk ctrl alt shift win seq _ => .key code vk ctrl alt shift win seq ignored

theorem Instr.operand_withIgnored (i : Instr) (ignored : Word) : (i.withIgnored ignored).operand = i.operand := by
  funext n
  cases i <;> cases n <;> rfl

theorem Instr.checksum_withIgnored (P : Profile) (i : Instr) (ignored : Word) :
    (i.withIgnored ignored).checksum P = i.checksum P := by
  rw [Instr.checksum, Instr.checksum, Instr.operand_withIgnored]

/-- A sample and its low 24 bits have the same class and operands. -/
theorem classify_lowBits {P : Profile} (wf : P.WF) (raw : Word) :
    classify P (lowBits raw) = (classify P raw).withIgnored (P.uncovered (lowBits raw)) := by
  cases kind : P.kind with
  | a =>
    rw [classify_a kind, classify_a kind, read_lowBits wf]
    split_ifs <;> rfl
  | b =>
    rw [classify_b kind, classify_b kind, read_lowBits wf]
    rfl

namespace Machine

/-- A meaning uses the ignored bits only for the sample's bits in its result (R107). -/
theorem exec_withIgnored {s : State} {i : Instr} {ignored : Word}
    (sameBits : frameBits s.params.profile (i.withIgnored ignored) = frameBits s.params.profile i) :
    exec (i.withIgnored ignored) s = exec i s := by
  have accept (t : State) (kind : Kind) (acc : Acc) (msg : Option (List Byte)) (key : Option KeyRecord)
      (params : t.params = s.params) :
      t.accept (i.withIgnored ignored) kind acc msg key = t.accept i kind acc msg key := by
    rw [State.accept, State.accept, params, sameBits, Instr.checksum_withIgnored]
  have violation (st : Status) : s.raiseViolation st (i.withIgnored ignored) = s.raiseViolation st i := by
    rw [State.raiseViolation, State.raiseViolation, sameBits, Instr.checksum_withIgnored]
  cases i with
  | decl len => exact congrArg _ (accept { s with cap := len, len := 0 } _ _ _ _ rfl)
  | eom =>
    refine (execEom_eq ..).trans (.trans ?_ (execEom_eq ..).symm)
    exact congrArg _ (accept _ _ _ _ _ rfl)
  | data =>
    show execData .. = execData ..
    rcases Nat.lt_trichotomy (s.len.toNat + 1) s.cap.toNat with room | last | full
    · rw [execData_appended room, execData_appended room]
      exact congrArg _ (accept _ _ _ _ _ rfl)
    · rw [execData_completed last, execData_completed last]
      exact congrArg _ (accept _ _ _ _ _ rfl)
    · rw [execData_ignored (by omega), execData_ignored (by omega)]
      exact congrArg _ (accept _ _ _ _ _ rfl)
  | invalidMetadataType => exact congrArg _ (violation _)
  | invalidDataType => exact congrArg _ (violation _)
  | key => exact congrArg _ (accept _ _ _ _ _ rfl)

theorem sampleStep_lowBits {s : State} (wf : s.params.WF) (raw : Word) :
    sampleStep (lowBits raw) s = sampleStep raw s := by
  obtain ⟨wf, -⟩ := wf
  obtain ⟨halted, takes⟩ | ⟨running, bad, takes⟩ | ⟨running, i, good, takes⟩ := sampleStep_cases raw s
  · rw [takes, sampleStep_halted halted, State.haltedReport, State.haltedReport, setWidth_lowBits]
  · have bad' : decode s.params.profile (lowBits raw) = .error .checksumMismatch := by
      rw [decode_eq_error_iff, checksumValid_lowBits wf, decode_eq_error_iff.mp bad]
    rw [takes, sampleStep_mismatch running bad', State.dropReport, State.dropReport, setWidth_lowBits,
      computed_lowBits wf]
  · obtain ⟨valid, rfl⟩ := decode_eq_ok_iff.mp good
    have good' := decode_eq_ok_iff.mpr ⟨(checksumValid_lowBits wf raw).trans valid, classify_lowBits wf raw⟩
    rw [takes, sampleStep_decoded running good']
    refine exec_withIgnored ?_
    rw [frameBits, frameBits, (encodeOfDecodeIsTheSample _ _ _ wf good').2, (encodeOfDecodeIsTheSample _ _ _ wf good).2,
      setWidth_lowBits]

/-- Settles O10: the codec reads bits 23 to 0 only, and the step adds only the result's `frame24`, which are those
bits. -/
theorem topByteIsIgnored : Obligations.TopByteIsIgnored := fun _ raw wf =>
  ⟨(decodeFrame_lowBits wf.1 raw).symm, (computed_lowBits wf.1 raw).symm, (sampleStep_lowBits wf raw).symm⟩

end Machine

end Sys2Proof
end

section
/-! The two default profiles (spec/30_encoding.md R49, R52, R56, R57, R64, R65): what their fields read, and the words
their encoders write. -/

namespace Sys2Proof

/-- A field is the slice of the sample at its position, zero-extended (R9). -/
theorem field_eq_extractLsb' (raw : Word) (F : FieldSpec) :
    field raw F = (raw.extractLsb' F.lsb F.width).setWidth 32 := by
  refine BitVec.eq_of_getLsbD_eq fun j hj => ?_
  rw [getLsbD_field, BitVec.getLsbD_setWidth, BitVec.getLsbD_extractLsb', decide_eq_true hj, Bool.true_and]

theorem setWidth_setWidth_self {w v : Nat} (le : w ≤ v) (x : BitVec w) : (x.setWidth v).setWidth w = x := by
  rw [BitVec.setWidth_setWidth_of_le x le, BitVec.setWidth_eq]

theorem bit_setWidth_eq_one_iff (b : BitVec 1) : b.setWidth 32 = 1#32 ↔ b = 1#1 := by
  revert b
  decide

/-- A bit of a sample is the one-bit slice at its position. -/
theorem getLsbD_eq_true_iff (raw : Word) (j : Nat) : raw.getLsbD j = true ↔ raw.extractLsb' j 1 = 1#1 := by
  have bit : (raw.extractLsb' j 1).getLsbD 0 = raw.getLsbD j := by simp
  rw [← bit]
  generalize raw.extractLsb' j 1 = b
  revert b
  decide

/-! ## The opcode map of Layout A -/

theorem profileA_uncovered (raw : Word) : profileA.uncovered raw = raw &&& 0xFF000000#32 := rfl

/-- Bits 23 to 19 are the metadata bit and the message type. -/
theorem opcode_eq_append (raw : Word) : raw.extractLsb' 19 5 = raw.extractLsb' 23 1 ++ raw.extractLsb' 19 4 :=
  (BitVec.extractLsb'_append_extractLsb'_eq_extractLsb' (x := raw) (start₁ := 19) (len₁ := 4) (len₂ := 1) rfl).symm

/-- The three rows of R56 that fix all five bits. -/
theorem opcode_append_eq_iff (isMetadata : BitVec 1) (code : BitVec 4) :
    (isMetadata ++ code = 0b10000#5 ↔ isMetadata = 1#1 ∧ code = 0#4) ∧
      (isMetadata ++ code = 0b11111#5 ↔ isMetadata = 1#1 ∧ code = 15#4) ∧
      (isMetadata ++ code = 0b00000#5 ↔ isMetadata ≠ 1#1 ∧ code = 0#4) := by
  revert isMetadata code
  decide

/-- Settles O5: the rows of R56 are the branches of the class by metadata bit and message type. -/
theorem layoutAOpcodeMap : Obligations.LayoutAOpcodeMap := by
  intro raw valid
  refine decode_eq_ok_iff.mpr ⟨valid, ?_⟩
  have isMetadata : profileA.read raw .isMetadata = _ := field_eq_extractLsb' raw ⟨_, 23, 1⟩
  have messageType : profileA.read raw .messageType = _ := field_eq_extractLsb' raw ⟨_, 19, 4⟩
  have seq : profileA.read raw .sequenceNumber = _ := field_eq_extractLsb' raw ⟨_, 15, 4⟩
  have payload : profileA.read raw .payload = _ := field_eq_extractLsb' raw ⟨_, 0, 8⟩
  rw [classify_a rfl, isMetadata, messageType, seq, payload, profileA_uncovered]
  simp only [setWidth_setWidth_self (show 4 ≤ 32 by decide), setWidth_setWidth_self (show 8 ≤ 32 by decide),
    bit_setWidth_eq_one_iff, typeCode_eq_iff, opcode_eq_append, opcode_append_eq_iff, getLsbD_eq_true_iff,
    BitVec.ofNat_eq_ofNat]
  by_cases metadata : raw.extractLsb' 23 1 = 1#1
  · simp only [metadata, ne_eq, not_true_eq_false, false_and, true_and, if_true, if_false]
  · simp only [metadata, ne_eq, not_false_eq_true, false_and, true_and, if_false]

/-! ## The one class of Layout B -/

theorem profileB_uncovered (raw : Word) : profileB.uncovered raw = raw &&& 0xFF000000#32 := rfl

/-- A one-bit field of `PROFILE_B` is set when its bit is. -/
theorem decide_flag_field (raw : Word) (n : FieldName) (j : Nat) :
    decide (field raw ⟨n, j, 1⟩ = 1#32) = raw.getLsbD j := by
  rw [field_eq_extractLsb', Bool.eq_iff_iff, decide_eq_true_eq, bit_setWidth_eq_one_iff, getLsbD_eq_true_iff]

/-- Settles O6: Layout B has one class, and the fields of `PROFILE_B` lie where R52 puts them. -/
theorem layoutBOneClass : Obligations.LayoutBOneClass := by
  intro raw valid
  refine decode_eq_ok_iff.mpr ⟨valid, ?_⟩
  have keyCode : profileB.read raw .keyCode = _ := field_eq_extractLsb' raw ⟨_, 5, 8⟩
  have seq : profileB.read raw .sequenceNumber = _ := field_eq_extractLsb' raw ⟨_, 20, 4⟩
  have isVirtualKey : decide (profileB.read raw .isVirtualKey = 1#32) = _ := decide_flag_field raw .isVirtualKey 4
  have ctrl : decide (profileB.read raw .ctrl = 1#32) = _ := decide_flag_field raw .ctrl 3
  have alt : decide (profileB.read raw .alt = 1#32) = _ := decide_flag_field raw .alt 2
  have shift : decide (profileB.read raw .shift = 1#32) = _ := decide_flag_field raw .shift 1
  have win : decide (profileB.read raw .win = 1#32) = _ := decide_flag_field raw .win 0
  rw [classify_b rfl, profileB_uncovered, keyCode, seq, setWidth_setWidth_self (by decide), ← isVirtualKey,
    ← ctrl, ← alt, ← shift, ← win]
  rfl

/-! ## The words the encoders write -/

theorem ofNat_shiftLeft (w n k : Nat) : BitVec.ofNat w (n <<< k) = BitVec.ofNat w n <<< k := by
  refine BitVec.eq_of_toNat_eq ?_
  simp [Nat.shiftLeft_eq]

theorem setWidth_ofNat_byte {n : Nat} (small : n < 256) : (BitVec.ofNat 8 n).setWidth 32 = BitVec.ofNat 32 n :=
  BitVec.eq_of_toNat_eq (by simp [Nat.mod_eq_of_lt small])

/-- The sum of R72 does not wrap while the sum of the numbers in the summed fields fits the accumulator (R71). -/
theorem toNat_checksumSum {P : Profile} {v : FieldName → Word}
    (small : (P.summed.map fun n => (v n).toNat).sum < 2 ^ 32) :
    (checksumSum P v).toNat = (P.summed.map fun n => (v n).toNat).sum := by
  unfold checksumSum
  revert small
  induction P.summed with
  | nil => exact fun _ => rfl
  | cons n l ih =>
    intro small
    rw [List.map_cons, List.sum_cons] at small ⊢
    rw [List.foldr_cons, BitVec.toNat_add, ih (by omega), Nat.mod_eq_of_lt small]

/-- The checksum an encoder places, where the averaged sum fits a byte. -/
theorem setWidth_checksum {P : Profile} {i : Instr} {sum : Nat} (value : (checksumSum P i.operand).toNat = sum)
    (small : sum / P.divisor < 256) : (i.checksum P).setWidth 32 = BitVec.ofNat 32 (sum / P.divisor) := by
  subst value
  exact setWidth_ofNat_byte small

section Formulas

variable {i : Instr} (ignored : i.ignored = 0)
include ignored

/-- The encoder of `PROFILE_A` (R64), on the numbers the instruction gives the fields. -/
theorem encode_profileA {m t s p : Nat} (isMetadata : i.operand .isMetadata = BitVec.ofNat 32 m)
    (messageType : i.operand .messageType = BitVec.ofNat 32 t)
    (seq : i.operand .sequenceNumber = BitVec.ofNat 32 s) (payload : i.operand .payload = BitVec.ofNat 32 p)
    (small : m + t + s + p < 1024) :
    encode profileA i = BitVec.ofNat 32 (m <<< 23 ||| t <<< 19 ||| s <<< 15 ||| ((m + t + s + p) / 4) <<< 8 ||| p) := by
  have values : (profileA.summed.map fun n => (i.operand n).toNat).sum = m + t + s + p := by
    simp only [profileA, List.map_cons, List.map_nil, List.sum_cons, List.sum_nil, isMetadata, messageType, seq,
      payload, BitVec.toNat_ofNat]
    omega
  have sum : (checksumSum profileA i.operand).toNat = m + t + s + p :=
    (toNat_checksumSum (by omega)).trans values
  have checksum : (i.checksum profileA).setWidth 32 = BitVec.ofNat 32 ((m + t + s + p) / 4) :=
    setWidth_checksum sum (show _ / 4 < 256 by omega)
  have placed : encode profileA i =
      i.operand .isMetadata <<< 23 ||| (i.operand .messageType <<< 19 ||| (i.operand .sequenceNumber <<< 15 |||
        ((i.checksum profileA).setWidth 32 <<< 8 ||| (i.operand .payload <<< 0 ||| i.ignored)))) := rfl
  simp only [placed, isMetadata, messageType, seq, payload, checksum, ignored, BitVec.ofNat_or, ofNat_shiftLeft,
    BitVec.or_assoc, BitVec.shiftLeft_zero, BitVec.or_zero, BitVec.ofNat_eq_ofNat]

/-- The encoder of `PROFILE_B` (R65), on the numbers the instruction gives the fields. -/
theorem encode_profileB {s k v c a h w : Nat} (seq : i.operand .sequenceNumber = BitVec.ofNat 32 s)
    (keyCode : i.operand .keyCode = BitVec.ofNat 32 k) (isVirtualKey : i.operand .isVirtualKey = BitVec.ofNat 32 v)
    (ctrl : i.operand .ctrl = BitVec.ofNat 32 c) (alt : i.operand .alt = BitVec.ofNat 32 a)
    (shift : i.operand .shift = BitVec.ofNat 32 h) (win : i.operand .win = BitVec.ofNat 32 w)
    (small : s + k + v + c + a + h + w < 1792) :
    encode profileB i =
      BitVec.ofNat 32
        (s <<< 20 ||| ((s + k + v + c + a + h + w) / 7) <<< 13 ||| k <<< 5 ||| v <<< 4 ||| c <<< 3 ||| a <<< 2 |||
          h <<< 1 ||| w) := by
  have values : (profileB.summed.map fun n => (i.operand n).toNat).sum = s + k + v + c + a + h + w := by
    simp only [profileB, List.map_cons, List.map_nil, List.sum_cons, List.sum_nil, seq, keyCode, isVirtualKey, ctrl,
      alt, shift, win, BitVec.toNat_ofNat]
    omega
  have sum : (checksumSum profileB i.operand).toNat = s + k + v + c + a + h + w :=
    (toNat_checksumSum (by omega)).trans values
  have checksum : (i.checksum profileB).setWidth 32 = BitVec.ofNat 32 ((s + k + v + c + a + h + w) / 7) :=
    setWidth_checksum sum (show _ / 7 < 256 by omega)
  have placed : encode profileB i =
      i.operand .sequenceNumber <<< 20 ||| ((i.checksum profileB).setWidth 32 <<< 13 ||| (i.operand .keyCode <<< 5 |||
        (i.operand .isVirtualKey <<< 4 ||| (i.operand .ctrl <<< 3 ||| (i.operand .alt <<< 2 |||
          (i.operand .shift <<< 1 ||| (i.operand .win <<< 0 ||| i.ignored))))))) := rfl
  simp only [placed, seq, keyCode, isVirtualKey, ctrl, alt, shift, win, checksum, ignored, BitVec.ofNat_or,
    ofNat_shiftLeft, BitVec.or_assoc, BitVec.shiftLeft_zero, BitVec.or_zero, BitVec.ofNat_eq_ofNat]

end Formulas

theorem flagWord_eq_ofNat (b : Bool) : flagWord b = BitVec.ofNat 32 b.toNat := by cases b <;> rfl

/-- Settles O14: each class gives the fields the numbers of the formulas, and the averaged sum fits a byte. -/
theorem encoderFormulas : Obligations.EncoderFormulas := by
  refine ⟨fun s p hs hp => ?_, fun s k v c a h w hs hk => ?_⟩
  · have payload := setWidth_ofNat_byte hp
    exact ⟨encode_profileA rfl rfl rfl rfl payload (by omega), encode_profileA rfl rfl rfl rfl payload (by omega),
      encode_profileA rfl rfl rfl rfl payload (by omega)⟩
  · have := Bool.toNat_lt v
    have := Bool.toNat_lt c
    have := Bool.toNat_lt a
    have := Bool.toNat_lt h
    have := Bool.toNat_lt w
    exact encode_profileB rfl rfl (setWidth_ofNat_byte hk) (flagWord_eq_ofNat v) (flagWord_eq_ofNat c)
      (flagWord_eq_ofNat a) (flagWord_eq_ofNat h) (flagWord_eq_ofNat w) (by omega)

end Sys2Proof
end

section
/-! The frames that send a text (spec/30_encoding.md R66): every one is an instruction `PROFILE_A` can spell, neighbours
differ by their sequence numbers, and delivered to a block they come out as the text. -/

namespace Sys2Proof

/-! ## The frames of a text -/

/-- The sequence number of the `n`-th frame of a sender that counts modulo 16 (R63, R66). -/
def seqWord (n : Nat) : Word := BitVec.ofNat 32 (n % 16)

theorem toNat_seqWord (n : Nat) : (seqWord n).toNat = n % 16 := by
  have := Nat.mod_lt n (show 0 < 16 by decide)
  exact Nat.mod_eq_of_lt (by omega)

/-- The frames of a text before the one that ends it: the declaration, then DATA. -/
def openFrames (cap : Byte) (text : List Byte) (seq : Nat) : List Instr :=
  .decl cap (seqWord seq) 0 :: dataFrames text (seq + 1)

theorem dataFrames_concat (text : List Byte) (b : Byte) (seq : Nat) :
    dataFrames (text ++ [b]) seq = dataFrames text seq ++ [.data b (seqWord (seq + text.length)) 0] := by
  induction text generalizing seq with
  | nil => rfl
  | cons a text ih =>
    rw [List.cons_append, dataFrames, ih, dataFrames, List.length_cons, Nat.add_right_comm, Nat.add_assoc]
    rfl

theorem openFrames_concat (cap : Byte) (text : List Byte) (b : Byte) (seq : Nat) :
    openFrames cap (text ++ [b]) seq = openFrames cap text seq ++ [.data b (seqWord (seq + 1 + text.length)) 0] := by
  rw [openFrames, dataFrames_concat]
  rfl

theorem msgFrames_eq (text : List Byte) (seq : Nat) :
    msgFrames text seq = openFrames (BitVec.ofNat 8 text.length) text seq := rfl

theorem msgtFrames_eq (text : List Byte) (cap : Byte) (seq : Nat) :
    msgtFrames text cap seq = openFrames cap text seq ++ [.eom 0 (seqWord (seq + 1 + text.length)) 0] := rfl

/-! ## The frames are well-formed -/

/-- The operands that the opcode map of Layout A names are at most what their fields hold (R49, R56). -/
theorem Instr.operand_le (i : Instr) :
    (i.operand .isMetadata).toNat ≤ 1 ∧ (i.operand .messageType).toNat ≤ 15 ∧ (i.operand .payload).toNat ≤ 255 := by
  have byte_le (b : Byte) : (b.setWidth 32).toNat ≤ 255 := Nat.le_of_lt_succ (Laws.toNat_setWidth_lt b le_rfl)
  have code_le (code : BitVec 4) : (code.setWidth 32).toNat ≤ 15 :=
    Nat.le_of_lt_succ (Laws.toNat_setWidth_lt code le_rfl)
  cases i with
  | decl len => exact ⟨Nat.le_refl 1, Nat.zero_le 15, byte_le len⟩
  | eom pad => exact ⟨Nat.le_refl 1, Nat.le_refl 15, byte_le pad⟩
  | data value => exact ⟨Nat.zero_le 1, Nat.zero_le 15, byte_le value⟩
  | invalidMetadataType code payload => exact ⟨Nat.le_refl 1, code_le code, byte_le payload⟩
  | invalidDataType code payload => exact ⟨Nat.zero_le 1, code_le code, byte_le payload⟩
  | key => exact ⟨Nat.zero_le 1, Nat.zero_le 15, Nat.zero_le 255⟩

theorem Instr.operand_seq (i : Instr) : i.operand .sequenceNumber = i.seq := by cases i <;> rfl

/-- The frames of Layout A are well-formed: every checksum fits the seven bits of `PROFILE_A` (R59). -/
theorem frame_wellFormed {i : Instr} {n : Nat} (layout : i.layout = .a) (typeCode : i.typeCodeOk = true)
    (seq : i.seq = seqWord n) (ignored : i.ignored = 0) : i.wellFormed profileA = true := by
  obtain ⟨isMetadata, messageType, payload⟩ := i.operand_le
  have seq_lt : i.seq.toNat < 16 := by
    rw [seq, toNat_seqWord]
    exact Nat.mod_lt n (by decide)
  have sum_le : (profileA.summed.map fun n => (i.operand n).toNat).sum ≤ 286 := by
    simp only [profileA, List.map_cons, List.map_nil, List.sum_cons, List.sum_nil, i.operand_seq]
    omega
  have sum : (checksumSum profileA i.operand).toNat ≤ 286 := (toNat_checksumSum (by omega)).trans_le sum_le
  have checksum : (i.checksum profileA).toNat < 2 ^ 7 :=
    lt_of_le_of_lt (Nat.mod_le _ _) (show (checksumSum profileA i.operand).toNat / 4 < 2 ^ 7 by omega)
  exact Laws.wellFormed_iff.mpr ⟨layout, typeCode, seq_lt, checksum, by rw [ignored]; exact BitVec.zero_and⟩

theorem openFrames_wellFormed (cap : Byte) (text : List Byte) (seq : Nat) :
    ∀ i ∈ openFrames cap text seq, i.wellFormed profileA = true := by
  induction text using List.reverseRecOn with
  | nil => exact List.forall_mem_singleton.mpr (frame_wellFormed rfl rfl rfl rfl)
  | append_singleton text b ih =>
    rw [openFrames_concat, List.forall_mem_append, List.forall_mem_singleton]
    exact ⟨ih, frame_wellFormed rfl rfl rfl rfl⟩

/-! ## Neighbouring frames differ -/

/-- One more frame, numbered next. -/
theorem map_seq_concat {frames : List Instr} {i : Instr} {seq n : Nat}
    (counts : frames.map Instr.seq = (List.range' seq n).map seqWord) (next : i.seq = seqWord (seq + n)) :
    (frames ++ [i]).map Instr.seq = (List.range' seq (n + 1)).map seqWord := by
  rw [List.map_append, counts, List.range'_1_concat, List.map_append, List.map_singleton, List.map_singleton, next]

theorem openFrames_seq (cap : Byte) (text : List Byte) (seq : Nat) :
    (openFrames cap text seq).map Instr.seq = (List.range' seq (text.length + 1)).map seqWord := by
  induction text using List.reverseRecOn with
  | nil => rfl
  | append_singleton text b ih =>
    rw [openFrames_concat, List.length_append, Nat.add_assoc seq, Nat.add_comm 1]
    exact map_seq_concat ih rfl

theorem seqWord_ne_succ (n : Nat) : seqWord n ≠ seqWord (n + 1) := by
  intro same
  have := congrArg BitVec.toNat same
  rw [toNat_seqWord, toNat_seqWord] at this
  omega

/-- Frames whose sequence numbers count up by one have no two equal neighbours (R41, R66). -/
theorem neighboursDiffer_of_seq {frames : List Instr} {seq n : Nat}
    (wellFormed : ∀ i ∈ frames, i.wellFormed profileA = true)
    (counts : frames.map Instr.seq = (List.range' seq n).map seqWord) :
    Machine.NeighboursDiffer (frames.map (encode profileA)) := by
  have reads : (frames.map (encode profileA)).map (profileA.read · .sequenceNumber) =
      (List.range' seq n).map seqWord := by
    rw [← counts, List.map_map]
    refine List.map_congr_left fun i hi => ?_
    exact (read_encode profileA_wf (wellFormed i hi) ⟨by decide, by decide⟩).trans i.operand_seq
  have seqs_differ : ((List.range' seq n).map seqWord).IsChain (· ≠ ·) := by
    refine (List.isChain_map seqWord).mpr ((List.isChain_range' seq n 1).imp ?_)
    rintro a _ rfl
    exact seqWord_ne_succ a
  rw [← reads, List.isChain_map] at seqs_differ
  exact seqs_differ.imp fun _ _ differ same => differ (congrArg (profileA.read · .sequenceNumber) same)

/-- Settles O16: in both sequences the sequence numbers count up by one, EOM included. -/
theorem messageFramesDiffer : Obligations.MessageFramesDiffer := by
  refine fun text seq => ⟨fun _ _ => ?_, fun cap _ => ?_⟩
  · rw [msgFrames_eq]
    exact neighboursDiffer_of_seq (openFrames_wellFormed _ text seq) (openFrames_seq _ text seq)
  · refine neighboursDiffer_of_seq (seq := seq) (n := text.length + 2) ?_ ?_
    · rw [msgtFrames_eq, List.forall_mem_append, List.forall_mem_singleton]
      exact ⟨openFrames_wellFormed cap text seq, frame_wellFormed rfl rfl rfl rfl⟩
    · rw [msgtFrames_eq, Nat.add_assoc seq, Nat.add_comm 1]
      exact map_seq_concat (openFrames_seq cap text seq) rfl

namespace Machine

/-! ## A text comes out whole -/

/-- One more sample after a list of samples. -/
theorem deliverAll_concat {raws : List Word} {raw : Word} {s t u : State} {rs : List Report} {r : Report}
    (before : deliverAll raws s = some (t, rs)) (takes : sampleStep raw t = .next u) (result : u.result = some r) :
    deliverAll (raws ++ [raw]) s = some (u, rs ++ [r]) := by
  induction raws generalizing s rs with
  | nil =>
    cases before
    simp [deliverAll, takes, result]
  | cons first raws ih =>
    simp only [List.cons_append, deliverAll] at before ⊢
    split at before
    case h_2 => cases before
    case h_1 v first_takes =>
      split at before
      case h_2 => cases before
      case h_1 r₁ w rs₁ first_result later =>
        cases before
        rw [ih later, first_result]
        rfl

theorem messages_concat (rs : List Report) (r : Report) : messages (rs ++ [r]) = messages rs ++ r.msg.toList := by
  cases msg : r.msg <;> simp [messages, msg]

/-- A frame of a text, delivered, runs its instruction. -/
theorem sampleStep_frame {s : State} {i : Instr} {n : Nat} (profile : s.params.profile = profileA)
    (running : s.halt = false) (layout : i.layout = .a) (typeCode : i.typeCodeOk = true) (seq : i.seq = seqWord n)
    (ignored : i.ignored = 0) : sampleStep (encode profileA i) s = exec i s := by
  have hi := frame_wellFormed layout typeCode seq ignored
  exact sampleStep_decoded running (profile ▸ decodeOfEncodeIsTheInstruction profileA i profileA_wf hi)

/-- `t` is `s` with a message of the declared capacity open and this much of it gathered. -/
structure State.Gathering (s t : State) (cap : Byte) (text : List Byte) : Prop where
  cap : t.cap = cap
  gathered : t.gathered = text
  viol : t.viol = s.viol
  halt : t.halt = s.halt
  params : t.params = s.params

theorem State.Gathering.len {s t : State} {cap : Byte} {text : List Byte} (h : s.Gathering t cap text) :
    t.len.toNat = text.length := by
  rw [← h.gathered, State.length_gathered]

theorem State.gathered_appended {s : State} (room : s.len.toNat + 1 < 256) (value : Byte) :
    ({ s with buf := s.buf.write s.len.toNat value, len := s.len + 1 } : State).gathered = s.gathered ++ [value] := by
  have counted : (s.len + 1).toNat = s.len.toNat + 1 := by bv_omega
  simp only [State.gathered, counted, range_succ_map_read_write]

/-- A declaration and fewer DATA than it declares are gathered and emit nothing, whatever the block did before (R91,
R93). -/
theorem deliver_openFrames {s : State} (profile : s.params.profile = profileA) (running : s.halt = false) (cap : Byte)
    (seq : Nat) {text : List Byte} (short : text.length < cap.toNat) :
    ∃ t rs, deliverAll ((openFrames cap text seq).map (encode profileA)) s = some (t, rs) ∧ messages rs = [] ∧
      s.Gathering t cap text := by
  induction text using List.reverseRecOn with
  | nil =>
    have takes := sampleStep_frame (i := .decl cap (seqWord seq) 0) profile running rfl rfl rfl rfl
    have declares := takes.trans (execDecl_eq ..)
    have delivers := deliverAll_concat (raws := []) rfl declares (State.accept_result ..)
    exact ⟨_, _, delivers, rfl, ⟨rfl, rfl, rfl, rfl, rfl⟩⟩
  | append_singleton text b ih =>
    rw [List.length_append, List.length_singleton] at short
    obtain ⟨t, rs, delivers, silent, gathering⟩ := ih (by omega)
    have takes := sampleStep_frame (i := .data b (seqWord (seq + 1 + text.length)) 0) (gathering.params ▸ profile)
      (gathering.halt.trans running) rfl rfl rfl rfl
    have appends := execData_appended (s := t) (by rw [gathering.len, gathering.cap]; exact short) b
      (seqWord (seq + 1 + text.length)) 0
    rw [openFrames_concat, List.map_append]
    refine ⟨_, _, deliverAll_concat delivers (takes.trans appends) (State.accept_result ..), ?_, gathering.cap, ?_,
      gathering.viol, gathering.halt, gathering.params⟩
    · rw [messages_concat, silent]
      rfl
    · have room : t.len.toNat + 1 < 256 := by
        rw [gathering.len]
        exact short.trans cap.isLt
      exact gathering.gathered ▸ State.gathered_appended room b

/-- The frame that ends an open message emits it, and nothing before it did. -/
theorem deliver_closing {s t u : State} {frames : List Instr} {i : Instr} {rs : List Report} {r : Report}
    {text : List Byte} (delivers : deliverAll (frames.map (encode profileA)) s = some (t, rs))
    (silent : messages rs = []) (closes : sampleStep (encode profileA i) t = .next u) (result : u.result = some r)
    (msg : r.msg = some text) :
    deliverAll ((frames ++ [i]).map (encode profileA)) s = some (u, rs ++ [r]) ∧ messages (rs ++ [r]) = [text] ∧
      messages (rs ++ [r]).dropLast = [] := by
  refine ⟨?_, ?_, ?_⟩
  · rw [List.map_append]
    exact deliverAll_concat delivers closes result
  · rw [messages_concat, silent, msg]
    rfl
  · rw [List.dropLast_concat, silent]

/-- Settles O45: the text but its last byte is gathered, and the last DATA fills the declared length. -/
theorem declaredTextComesOutWhole : Obligations.DeclaredTextComesOutWhole := by
  intro s text seq _ profile running nonempty bounded
  obtain rfl | ⟨init, last, rfl⟩ := List.eq_nil_or_concat' text
  · contradiction
  rw [List.length_append, List.length_singleton] at bounded
  have declared : (BitVec.ofNat 8 (init ++ [last]).length).toNat = init.length + 1 := by
    rw [List.length_append, List.length_singleton, BitVec.toNat_ofNat, Nat.mod_eq_of_lt (by omega)]
  obtain ⟨t, rs, delivers, silent, gathering⟩ := deliver_openFrames profile running
    (BitVec.ofNat 8 (init ++ [last]).length) seq (text := init) (by omega)
  have takes := sampleStep_frame (i := .data last (seqWord (seq + 1 + init.length)) 0) (gathering.params ▸ profile)
    (gathering.halt.trans running) rfl rfl rfl rfl
  have completes := execData_completed (s := t) (by rw [gathering.len, gathering.cap, declared]) last
    (seqWord (seq + 1 + init.length)) 0
  obtain ⟨all, whole, once⟩ := deliver_closing delivers silent (takes.trans completes) (State.accept_result ..)
    (congrArg (fun bytes => some (bytes ++ [last])) gathering.gathered)
  rw [msgFrames_eq, openFrames_concat]
  exact ⟨_, _, all, ⟨rfl, rfl⟩, whole, once, gathering.viol, gathering.halt.trans running⟩

/-- Settles O46: the whole text is gathered below the declared capacity, and EOM emits it. -/
theorem terminatedTextComesOutWhole : Obligations.TerminatedTextComesOutWhole := by
  intro s text cap seq _ profile running short
  obtain ⟨t, rs, delivers, silent, gathering⟩ := deliver_openFrames profile running cap seq short
  have takes := sampleStep_frame (i := .eom 0 (seqWord (seq + 1 + text.length)) 0) (gathering.params ▸ profile)
    (gathering.halt.trans running) rfl rfl rfl rfl
  have terminates := execEom_eq 0 (seqWord (seq + 1 + text.length)) 0 t
  obtain ⟨all, whole, once⟩ := deliver_closing delivers silent (takes.trans terminates) (State.accept_result ..)
    (congrArg some gathering.gathered)
  rw [msgtFrames_eq]
  exact ⟨_, _, all, ⟨rfl, rfl⟩, whole, once, gathering.viol, gathering.halt.trans running⟩

end Machine

end Sys2Proof
end

section
/-! Nothing faults (spec/30_encoding.md R54, R68): every sample and every moment of the ports has a next state, so the
only step that stops is the one of ill-formed parameters. -/

namespace Sys2Proof.Machine

theorem exists_sampleStep_next (raw : Word) (s : State) : ∃ t, sampleStep raw s = .next t := by
  obtain ⟨-, halted⟩ | ⟨-, -, dropped⟩ | ⟨-, i, -, executed⟩ := sampleStep_cases raw s
  · exact ⟨_, halted⟩
  · exact ⟨_, dropped⟩
  · obtain ⟨t, completes, -⟩ := exists_executed i s
    exact ⟨t, executed.trans completes⟩

theorem exists_onPorts_next (p : InPorts) (s : State) : ∃ t, onPorts p s = .next t := by
  cases reset : p.rst with
  | true => exact ⟨_, onPorts_reset reset s⟩
  | false =>
    cases valid : p.inValid with
    | true => exact onPorts_sample reset valid s ▸ exists_sampleStep_next p.inData s
    | false => exact ⟨_, onPorts_idle reset valid s⟩

/-- Settles O32: a block with well-formed parameters waits or acts on its ports, and every action completes. -/
theorem onlyIllFormedInstancesStop : Obligations.OnlyIllFormedInstancesStop := by
  intro s
  by_cases wf : s.params.WF
  · refine .inl ⟨?_, wf⟩
    cases inputs : s.inputs with
    | nil => exact ⟨_, step_of_noInputs wf inputs⟩
    | cons p rest => exact step_of_inputs wf inputs ▸ exists_onPorts_next p _
  · exact .inr ⟨step_of_illFormed wf, wf⟩

end Sys2Proof.Machine
end

section
/-! The frame codec (spec/40_frame_codec.md): the checksum decides first, the sum behind it is exact, what a change of
one field does to it, and that the step sees of a valid sample its frame only. -/

namespace Sys2Proof

open Machine

/-! ## The codec is the decoder and the frame of its instruction (R82) -/

/-- Settles O1, by what R82 answers for a dropped and for a decoded sample. -/
theorem decoderIsTheWholeCodec : Obligations.DecoderIsTheWholeCodec := by
  intro P raw
  cases decoded : decode P raw with
  | error e => cases e; exact decodeFrame_of_mismatch decoded
  | ok i => exact decodeFrame_of_decoded decoded

/-- No class of instructions is rejected for its checksum (R75 to R80). -/
theorem Instr.frame_ne_checksumMismatch (i : Instr) : i.frame ≠ .error .checksumMismatch := by
  cases i <;> exact nofun

/-- The codec and the decoder drop the same samples (R74). -/
theorem decodeFrame_eq_mismatch_iff {P : Profile} {raw : Word} :
    decodeFrame P raw = .error .checksumMismatch ↔ checksumValid P raw = false := by
  rw [← decode_eq_error_iff]
  refine ⟨fun rejected => ?_, decodeFrame_of_mismatch⟩
  cases decoded : decode P raw with
  | error e => rfl
  | ok i => exact absurd ((decodeFrame_of_decoded decoded).symm.trans rejected) i.frame_ne_checksumMismatch

/-- Settles O2: the decoder's condition is that of R73. -/
theorem checksumIsCheckedFirst : Obligations.ChecksumIsCheckedFirst := fun P raw => by
  rw [decodeFrame_eq_mismatch_iff, ← Bool.not_eq_true, checksumValid_iff]

/-- Settles O7: a sample that decodes under a profile of kind `B` is a KEY. -/
theorem layoutBHasOneError : Obligations.LayoutBHasOneError := by
  intro P raw kind
  cases decoded : decode P raw with
  | error e => cases e; exact .inl (decodeFrame_of_mismatch decoded)
  | ok i =>
    obtain ⟨code, vk, ctrl, alt, shift, win, seq, ignored, rfl⟩ :=
      Instr.eq_key_of_layout ((decode_layout decoded).trans kind)
    exact .inr ⟨_, decodeFrame_of_decoded decoded⟩

/-! ## The checksum field and the computed checksum (R73, R85) -/

section Checksum

variable {P : Profile} {raw raw' : Word}

theorem computed_congr (same : ∀ n ∈ P.summed, P.read raw n = P.read raw' n) : computed P raw = computed P raw' :=
  checksumOf_congr same

theorem setWidth_byte_inj {a b : Byte} : a.setWidth 32 = b.setWidth 32 ↔ a = b := by
  refine ⟨fun h => ?_, congrArg _⟩
  rw [← setWidth_setWidth_self (show 8 ≤ 32 by decide) a, h, setWidth_setWidth_self (by decide)]

/-- With the checksum field kept, a changed sample is caught exactly when its computed checksum is another. -/
theorem checksumValid_eq_false_iff_of_csum (valid : checksumValid P raw = true)
    (csum : P.read raw' P.csum = P.read raw P.csum) :
    checksumValid P raw' = false ↔ computed P raw' ≠ computed P raw := by
  rw [← Bool.not_eq_true, checksumValid_iff, csum, ← checksumValid_iff.mp valid, setWidth_byte_inj]

end Checksum

/-- Settles O8: the computed checksum sees the summed fields only, so both samples need the same checksum field. -/
theorem checksumFieldIsDetermined : Obligations.ChecksumFieldIsDetermined := by
  intro P raw raw' same valid
  rw [checksumValid_iff, ← computed_congr same, checksumValid_iff.mp valid]
  exact eq_comm

/-! ## The sum is exact (R71) -/

/-- The sum of R72 over the natural numbers, where nothing wraps. -/
def Profile.exactSum (P : Profile) (raw : Word) : Nat := (P.summed.map fun n => (P.read raw n).toNat).sum

/-- The bits of a sample that the named field covers; none for a name the profile does not have. -/
def Profile.bitsOf (P : Profile) (n : FieldName) : Finset Nat :=
  match P.find n with
  | some F => Finset.Ico F.lsb (F.lsb + F.width)
  | none => ∅

section ExactSum

variable {P : Profile}

theorem Profile.mem_bitsOf {n : FieldName} {j : Nat} :
    j ∈ P.bitsOf n ↔ ∃ F, P.find n = some F ∧ F.lsb ≤ j ∧ j < F.lsb + F.width := by
  unfold Profile.bitsOf
  cases P.find n <;> simp

/-- A field's value is at most the weight of its bits in the sample. -/
theorem Profile.read_le_bits (P : Profile) (raw : Word) (n : FieldName) :
    (P.read raw n).toNat ≤ ∑ j ∈ P.bitsOf n, 2 ^ j := by
  unfold Profile.read Profile.bitsOf
  cases P.find n with
  | none => simp
  | some F =>
    calc (field raw F).toNat
        ≤ 2 ^ F.width - 1 := Nat.le_sub_one_of_lt (toNat_field_lt raw F)
      _ = ∑ j ∈ Finset.range F.width, 2 ^ j := by simp [Nat.geomSum_eq (m := 2) le_rfl]
      _ ≤ ∑ j ∈ Finset.range F.width, 2 ^ (F.lsb + j) :=
          Finset.sum_le_sum fun j _ => Nat.pow_le_pow_right two_pos (Nat.le_add_left j F.lsb)
      _ = ∑ j ∈ Finset.Ico F.lsb (F.lsb + F.width), 2 ^ j := by
          rw [Finset.sum_Ico_eq_sum_range, Nat.add_sub_cancel_left]

/-- Differently named fields share no bit (W2). -/
theorem Profile.WF.bitsOf_disjoint (wf : P.WF) {n m : FieldName} (distinct : n ≠ m) :
    Disjoint (P.bitsOf n) (P.bitsOf m) := by
  refine Finset.disjoint_left.mpr fun j inN inM => distinct ?_
  obtain ⟨F, foundF, bitF⟩ := Profile.mem_bitsOf.mp inN
  obtain ⟨G, foundG, bitG⟩ := Profile.mem_bitsOf.mp inM
  obtain ⟨hF, rfl⟩ := Profile.find_some foundF
  obtain ⟨hG, rfl⟩ := Profile.find_some foundG
  rw [wf.field_unique hF hG ((FieldSpec.getLsbD_mask_iff (wf.1 F hF).2).mpr bitF)
    ((FieldSpec.getLsbD_mask_iff (wf.1 G hG).2).mpr bitG)]

/-- Every field lies within bits 23 to 0 (W1). -/
theorem Profile.WF.lt_of_mem_bitsOf (wf : P.WF) {n : FieldName} {j : Nat} (hj : j ∈ P.bitsOf n) : j < 24 := by
  obtain ⟨F, found, -, top⟩ := Profile.mem_bitsOf.mp hj
  exact top.trans_le (wf.1 F (Profile.find_some found).1).2

/-- Fields summed once each are disjoint bits of the 24, so their sum is below the weight of all of these. -/
theorem Profile.WF.exactSum_lt (wf : P.WF) (once : P.summed.Nodup) (raw : Word) : P.exactSum raw < 2 ^ 24 := by
  have bits : ∀ j ∈ P.summed.toFinset.biUnion P.bitsOf, j < 24 := fun j hj => by
    obtain ⟨n, -, hj⟩ := Finset.mem_biUnion.mp hj
    exact wf.lt_of_mem_bitsOf hj
  calc P.exactSum raw
      = ∑ n ∈ P.summed.toFinset, (P.read raw n).toNat := (List.sum_toFinset _ once).symm
    _ ≤ ∑ n ∈ P.summed.toFinset, ∑ j ∈ P.bitsOf n, 2 ^ j := Finset.sum_le_sum fun n _ => P.read_le_bits raw n
    _ = ∑ j ∈ P.summed.toFinset.biUnion P.bitsOf, 2 ^ j :=
        (Finset.sum_biUnion fun n _ m _ distinct => wf.bitsOf_disjoint distinct).symm
    _ < 2 ^ 24 := Nat.geomSum_lt le_rfl bits

theorem Profile.WF.toNat_checksumSum (wf : P.WF) (once : P.summed.Nodup) (raw : Word) :
    (checksumSum P (P.read raw)).toNat = P.exactSum raw :=
  Sys2Proof.toNat_checksumSum ((wf.exactSum_lt once raw).trans (by decide))

/-- The computed checksum as R72 writes it, on the exact sum. -/
theorem Profile.WF.computed_eq (wf : P.WF) (once : P.summed.Nodup) (raw : Word) :
    computed P raw = BitVec.ofNat 8 (P.exactSum raw / P.divisor) := by
  rw [computed, checksumOf, wf.toNat_checksumSum once]

end ExactSum

/-! ## The sums of the default profiles (R49, R52, R72) -/

theorem profileA_summed_nodup : profileA.summed.Nodup := by decide

theorem profileB_summed_nodup : profileB.summed.Nodup := by decide

theorem toNat_field {width : Nat} (fits : width ≤ 32) (raw : Word) (n : FieldName) (lsb : Nat) :
    (field raw ⟨n, lsb, width⟩).toNat = (raw.extractLsb' lsb width).toNat := by
  rw [field_eq_extractLsb', BitVec.toNat_setWidth_of_le fits]

theorem profileA_exactSum (raw : Word) :
    profileA.exactSum raw =
      (raw.extractLsb' 23 1).toNat + (raw.extractLsb' 19 4).toNat + (raw.extractLsb' 15 4).toNat +
        (raw.extractLsb' 0 8).toNat := by
  have terms : profileA.exactSum raw = (field raw ⟨.isMetadata, 23, 1⟩).toNat +
      ((field raw ⟨.messageType, 19, 4⟩).toNat + ((field raw ⟨.sequenceNumber, 15, 4⟩).toNat +
        (field raw ⟨.payload, 0, 8⟩).toNat)) := rfl
  simp (disch := decide) only [terms, toNat_field, Nat.add_assoc]

theorem profileB_exactSum (raw : Word) :
    profileB.exactSum raw =
      (raw.extractLsb' 20 4).toNat + (raw.extractLsb' 5 8).toNat + (raw.extractLsb' 4 1).toNat +
        (raw.extractLsb' 3 1).toNat + (raw.extractLsb' 2 1).toNat + (raw.extractLsb' 1 1).toNat +
        (raw.extractLsb' 0 1).toNat := by
  have terms : profileB.exactSum raw = (field raw ⟨.sequenceNumber, 20, 4⟩).toNat +
      ((field raw ⟨.keyCode, 5, 8⟩).toNat + ((field raw ⟨.isVirtualKey, 4, 1⟩).toNat +
        ((field raw ⟨.ctrl, 3, 1⟩).toNat + ((field raw ⟨.alt, 2, 1⟩).toNat +
          ((field raw ⟨.shift, 1, 1⟩).toNat + (field raw ⟨.win, 0, 1⟩).toNat))))) := rfl
  simp (disch := decide) only [terms, toNat_field, Nat.add_assoc]

/-- Settles O3: the exact sum of each default profile, read from the slices of the sample. -/
theorem computedChecksumFormulas : Obligations.ComputedChecksumFormulas := by
  refine ⟨fun raw => ?_, fun raw => ?_⟩
  · rw [profileA_wf.computed_eq profileA_summed_nodup, profileA_exactSum]
    rfl
  · rw [profileB_wf.computed_eq profileB_summed_nodup, profileB_exactSum]
    rfl

theorem profileA_exactSum_le (raw : Word) : profileA.exactSum raw ≤ 286 := by
  rw [profileA_exactSum]
  have := (raw.extractLsb' 23 1).isLt
  have := (raw.extractLsb' 19 4).isLt
  have := (raw.extractLsb' 15 4).isLt
  have := (raw.extractLsb' 0 8).isLt
  omega

theorem profileB_exactSum_le (raw : Word) : profileB.exactSum raw ≤ 275 := by
  rw [profileB_exactSum]
  have := (raw.extractLsb' 20 4).isLt
  have := (raw.extractLsb' 5 8).isLt
  have flag (j : Nat) := (raw.extractLsb' j 1).isLt
  have := flag 4
  have := flag 3
  have := flag 2
  have := flag 1
  have := flag 0
  omega

/-- The low byte of the average is at most the average (R72). -/
theorem Profile.WF.computed_le {P : Profile} (wf : P.WF) (once : P.summed.Nodup) (raw : Word) :
    (computed P raw).toNat ≤ P.exactSum raw / P.divisor := by
  rw [wf.computed_eq once, BitVec.toNat_ofNat]
  exact Nat.mod_le ..

/-- Settles O4: disjoint bits below bit 24, and the widest values of the fields under the default profiles. -/
theorem checksumSumDoesNotWrap : Obligations.ChecksumSumDoesNotWrap := by
  refine ⟨fun P raw wf once => ⟨wf.toNat_checksumSum once raw, wf.exactSum_lt once raw⟩, fun raw => ?_⟩
  have sumA := profileA_exactSum_le raw
  have sumB := profileB_exactSum_le raw
  rw [profileA_wf.toNat_checksumSum profileA_summed_nodup, profileB_wf.toNat_checksumSum profileB_summed_nodup]
  exact ⟨sumA, (profileA_wf.computed_le profileA_summed_nodup raw).trans (Nat.div_le_div_right (c := 4) sumA),
    sumB, (profileB_wf.computed_le profileB_summed_nodup raw).trans (Nat.div_le_div_right (c := 7) sumB)⟩

/-! ## Flipping a one-bit field (R85) -/

/-- The sample with one bit inverted. -/
def flipBit (raw : Word) (j : Nat) : Word := raw ^^^ 1#32 <<< j

theorem getLsbD_flipBit (raw : Word) {j : Nat} (hj : j < 32) (k : Nat) :
    (flipBit raw j).getLsbD k = (raw.getLsbD k ^^ decide (j = k)) := by
  rw [flipBit, BitVec.getLsbD_xor, ← BitVec.twoPow_eq, BitVec.getLsbD_twoPow, decide_eq_true hj, Bool.true_and]

/-- One more in the sum gives another low byte of the average exactly at a multiple of the divisor. -/
theorem ofNat_succ_div_ne_iff (sum divisor : Nat) :
    BitVec.ofNat 8 ((sum + 1) / divisor) ≠ BitVec.ofNat 8 (sum / divisor) ↔ divisor ∣ sum + 1 := by
  rw [Nat.succ_div, ne_eq, ← BitVec.toNat_inj, BitVec.toNat_ofNat, BitVec.toNat_ofNat]
  split_ifs with multiple
  · exact iff_of_true (by omega) multiple
  · exact iff_of_false (by omega) multiple

section Flip

variable {P : Profile} (wf : P.WF) {F : FieldSpec} (hF : F ∈ P.fields) (oneBit : F.width = 1)
include wf hF oneBit

/-- A one-bit field counts as its bit, 0 or 1 (R55). -/
theorem Profile.WF.toNat_read_bit (raw : Word) : (P.read raw F.name).toNat = (raw.getLsbD F.lsb).toNat := by
  have small := toNat_field_lt raw F
  have bit : (field raw F).toNat.testBit 0 = raw.getLsbD F.lsb := by
    rw [BitVec.testBit_toNat, getLsbD_field, oneBit]
    simp
  rw [Profile.read_of_mem wf.2.2.1.1 hF, ← bit, Nat.testBit_zero]
  rw [oneBit] at small
  interval_cases (field raw F).toNat <;> rfl

/-- Flipping a one-bit field changes no other (W2). -/
theorem Profile.WF.read_flipBit_of_ne (raw : Word) {n : FieldName} (other : n ≠ F.name) :
    P.read (flipBit raw F.lsb) n = P.read raw n := by
  have fits := (wf.1 F hF).2
  unfold Profile.read
  cases found : P.find n with
  | none => rfl
  | some G =>
    obtain ⟨hG, rfl⟩ := Profile.find_some found
    refine BitVec.eq_of_getLsbD_eq fun k _ => ?_
    rw [getLsbD_field, getLsbD_field, getLsbD_flipBit raw (by omega)]
    by_cases inside : k < G.width
    · have elsewhere : F.lsb ≠ G.lsb + k := fun shared => other <| congrArg FieldSpec.name <|
        wf.field_unique hG hF (j := G.lsb + k) ((FieldSpec.getLsbD_mask_iff (wf.1 G hG).2).mpr (by omega))
          ((FieldSpec.getLsbD_mask_iff fits).mpr (by omega))
      rw [decide_eq_false elsewhere, Bool.xor_false]
    · rw [decide_eq_false inside, Bool.false_and, Bool.false_and]

theorem Profile.WF.getLsbD_flipBit_lsb (raw : Word) : (flipBit raw F.lsb).getLsbD F.lsb = !raw.getLsbD F.lsb := by
  have fits := (wf.1 F hF).2
  rw [getLsbD_flipBit raw (by omega), decide_eq_true rfl, Bool.xor_true]

/-- Flipping a one-bit field of a valid sample keeps the checksum field, so the computed checksum decides. -/
theorem Profile.WF.flip_caught_iff_computed (summed : F.name ∈ P.summed) {raw : Word}
    (valid : checksumValid P raw = true) :
    checksumValid P (flipBit raw F.lsb) = false ↔ computed P (flipBit raw F.lsb) ≠ computed P raw := by
  obtain ⟨-, unsummed⟩ := wf.isOperand_of_summed summed
  exact checksumValid_eq_false_iff_of_csum valid (wf.read_flipBit_of_ne hF oneBit raw unsummed.symm)

variable (once : P.summed.Nodup) (summed : F.name ∈ P.summed)
include once summed

/-- Setting a clear one-bit summed field adds one to the sum. -/
theorem Profile.WF.exactSum_flipBit {raw : Word} (clear : raw.getLsbD F.lsb = false) :
    P.exactSum (flipBit raw F.lsb) = P.exactSum raw + 1 := by
  have kept : (P.summed.erase F.name).map (fun n => (P.read (flipBit raw F.lsb) n).toNat) =
      (P.summed.erase F.name).map fun n => (P.read raw n).toNat :=
    List.map_congr_left fun n hn => congrArg _ (wf.read_flipBit_of_ne hF oneBit raw (once.mem_erase_iff.mp hn).1)
  rw [Profile.exactSum, Profile.exactSum, ← List.sum_map_erase _ summed, ← List.sum_map_erase _ summed, kept,
    wf.toNat_read_bit hF oneBit, wf.toNat_read_bit hF oneBit, wf.getLsbD_flipBit_lsb hF oneBit, clear]
  simp [Nat.add_comm]

/-- From 0 to 1 the flip is caught when the sum reaches a multiple of the divisor. -/
theorem Profile.WF.flip_caught_iff_of_clear {raw : Word} (valid : checksumValid P raw = true)
    (clear : raw.getLsbD F.lsb = false) :
    checksumValid P (flipBit raw F.lsb) = false ↔ P.divisor ∣ P.exactSum raw + 1 := by
  rw [wf.flip_caught_iff_computed hF oneBit summed valid, wf.computed_eq once, wf.computed_eq once,
    wf.exactSum_flipBit hF oneBit once summed clear, ofNat_succ_div_ne_iff]

/-- From 1 to 0 the flip is caught when the sum leaves a multiple of the divisor. -/
theorem Profile.WF.flip_caught_iff_of_set {raw : Word} (valid : checksumValid P raw = true)
    (set : raw.getLsbD F.lsb = true) :
    checksumValid P (flipBit raw F.lsb) = false ↔ P.divisor ∣ P.exactSum raw := by
  have back : flipBit (flipBit raw F.lsb) F.lsb = raw := by
    rw [flipBit, flipBit, BitVec.xor_assoc, BitVec.xor_self, BitVec.xor_zero]
  have sum := wf.exactSum_flipBit hF oneBit once summed (raw := flipBit raw F.lsb)
    (by rw [wf.getLsbD_flipBit_lsb hF oneBit, set]; rfl)
  rw [back] at sum
  rw [wf.flip_caught_iff_computed hF oneBit summed valid, wf.computed_eq once, wf.computed_eq once, sum, ne_comm,
    ofNat_succ_div_ne_iff]

end Flip

/-- The flags of `PROFILE_B` are its bits 4 to 0 (R52). -/
theorem profileB_flag_of_lt {j : Nat} (hj : j < 5) :
    ∃ F ∈ profileB.fields, F.width = 1 ∧ F.name ∈ profileB.summed ∧ F.lsb = j := by
  revert j
  decide

/-- Settles O9: `is_metadata` and the flags are one-bit summed fields of the default profiles. -/
theorem oneBitFlipIsCaughtExactly : Obligations.OneBitFlipIsCaughtExactly := by
  refine ⟨fun raw valid => ?_, fun raw j hj valid => ?_⟩
  · have isMetadata : (⟨.isMetadata, 23, 1⟩ : FieldSpec) ∈ profileA.fields := by decide
    have summed : FieldName.isMetadata ∈ profileA.summed := by decide
    have clear := profileA_wf.flip_caught_iff_of_clear isMetadata rfl profileA_summed_nodup summed valid
    have set := profileA_wf.flip_caught_iff_of_set isMetadata rfl profileA_summed_nodup summed valid
    rw [profileA_wf.toNat_checksumSum profileA_summed_nodup]
    rw [show profileA.divisor = 4 from rfl] at clear set
    exact ⟨fun bit => (clear bit).trans (by omega), fun bit => (set bit).trans (by omega)⟩
  · obtain ⟨F, hF, oneBit, summed, rfl⟩ := profileB_flag_of_lt hj
    have clear := profileB_wf.flip_caught_iff_of_clear hF oneBit profileB_summed_nodup summed valid
    have set := profileB_wf.flip_caught_iff_of_set hF oneBit profileB_summed_nodup summed valid
    rw [profileB_wf.toNat_checksumSum profileB_summed_nodup]
    rw [show profileB.divisor = 7 from rfl] at clear set
    exact ⟨fun bit => (clear bit).trans (by omega), fun bit => (set bit).trans (by omega)⟩

/-! ## The sequence number is unused (R81) -/

/-- The frame of a sample's class reads neither the sequence number nor the checksum. -/
theorem frame_classify_congr {P : Profile} (wf : P.WF) {raw raw' : Word}
    (same : ∀ n, n ≠ .sequenceNumber → n ≠ P.csum → P.read raw n = P.read raw' n) :
    (classify P raw).frame = (classify P raw').frame := by
  have read {n : FieldName} (operand : P.IsOperand n) (used : n ≠ .sequenceNumber) : P.read raw n = P.read raw' n :=
    same n used operand.2
  cases kind : P.kind with
  | a =>
    have isMetadata := read (wf.isOperand_a kind (n := .isMetadata) (by decide)) (by decide)
    have messageType := read (wf.isOperand_a kind (n := .messageType) (by decide)) (by decide)
    have payload := read (wf.isOperand_a kind (n := .payload) (by decide)) (by decide)
    rw [classify_a kind, classify_a kind, isMetadata, messageType, payload]
    split_ifs <;> rfl
  | b =>
    have operand (n : FieldName) (hn : n ∈ [.keyCode, .isVirtualKey, .ctrl, .alt, .shift, FieldName.win]) :=
      read (wf.isOperand_b kind (List.mem_cons_of_mem _ hn)) fun h => by subst h; exact absurd hn (by decide)
    rw [classify_b kind, classify_b kind, operand .keyCode (by decide), operand .isVirtualKey (by decide),
      operand .ctrl (by decide), operand .alt (by decide), operand .shift (by decide), operand .win (by decide)]
    rfl

namespace Machine

/-- Two states present a result each and differ in nothing but the sample's bits and checksum that it shows (R107). -/
def SameButSample (t t' : State) : Prop :=
  ∃ r r' : Report, t.result = some r ∧ t'.result = some r' ∧
    { t with result := none } = { t' with result := none } ∧
    { r with frame24 := 0, computed := 0 } = { r' with frame24 := 0, computed := 0 }

/-- Of the instruction it accepts, a block shows the sample's bits and checksum only. -/
theorem sameButSample_accept (s : State) (i i' : Instr) (kind : Kind) (acc : Acc) (msg : Option (List Byte))
    (key : Option KeyRecord) : SameButSample (s.accept i kind acc msg key) (s.accept i' kind acc msg key) :=
  ⟨_, _, rfl, rfl, rfl, rfl⟩

theorem sameButSample_raiseViolation (s : State) (st : Status) (i i' : Instr) :
    SameButSample (s.raiseViolation st i) (s.raiseViolation st i') :=
  ⟨_, _, rfl, rfl, rfl, rfl⟩

/-- What an instruction does is decided by its frame. -/
theorem Executed.sameButSample {s t t' : State} {i i' : Instr} (h : Executed s i t) (h' : Executed s i' t')
    (frame : i.frame = i'.frame) : SameButSample t t' := by
  cases h with
  | declared | terminated | key =>
    cases h' <;> cases frame
    exact sameButSample_accept ..
  | invalidMetadata | invalidData =>
    cases h' <;> cases frame
    exact sameButSample_raiseViolation ..
  | ignored =>
    cases h' with
    | ignored => cases frame; exact sameButSample_accept ..
    | completed | appended => omega
    | _ => cases frame
  | completed =>
    cases h' with
    | completed => cases frame; exact sameButSample_accept ..
    | ignored | appended => omega
    | _ => cases frame
  | appended =>
    cases h' with
    | appended => cases frame; exact sameButSample_accept ..
    | ignored | completed => omega
    | _ => cases frame

/-- Settles O11: the two samples have the same frame, and the frame decides the step. -/
theorem sequenceNumberIsUnused : Obligations.SequenceNumberIsUnused := by
  intro s raw raw' wf running valid valid' same
  have good := decode_eq_ok_iff.mpr ⟨valid, rfl⟩
  have good' := decode_eq_ok_iff.mpr ⟨valid', rfl⟩
  have frame := frame_classify_congr wf.1 same
  obtain ⟨t, executes, executed⟩ := exists_executed (classify s.params.profile raw) s
  obtain ⟨t', executes', executed'⟩ := exists_executed (classify s.params.profile raw') s
  obtain ⟨r, r', result, result', registers, reports⟩ := executed.sameButSample executed' frame
  refine ⟨?_, t, t', r, r', ?_, ?_, result, result', registers, reports⟩
  · rw [decodeFrame_of_decoded good, decodeFrame_of_decoded good', frame]
  · exact (sampleStep_decoded running good).trans executes
  · exact (sampleStep_decoded running good').trans executes'

end Machine

end Sys2Proof
end

section
/-! The reassembler (spec/41_reassembler.md): what DECL, DATA and EOM do in every state, the phase table, and how long
an emitted message is. -/

namespace Sys2Proof.Machine

/-! ## Each frame in every state (R91 to R94) -/

/-- Accepting an instruction writes the result and nothing else. -/
theorem State.accept_eq (s : State) (i : Instr) (kind : Kind) (acc : Acc) (msg : Option (List Byte))
    (key : Option KeyRecord) :
    s.accept i kind acc msg key = { s with result := some (s.okReport i kind acc msg key) } := rfl

/-- Settles O17, by the meaning of DECL and what accepting it writes. -/
theorem declDeclares : Obligations.DeclDeclares := fun len seq ignored s =>
  (execDecl_eq len seq ignored s).trans (congrArg _ (State.accept_eq ..))

/-- While the phase is kept there is no room for a byte exactly when no message is declared (R92). -/
theorem State.cap_le_len_iff {s : State} (phase : s.phaseOk) : s.cap.toNat ≤ s.len.toNat ↔ s.cap = 0 := by
  have bounds := State.phaseOk_iff.mp phase
  have cap_eq_zero : s.cap = 0 ↔ s.cap.toNat = 0 := BitVec.toNat_eq
  rw [cap_eq_zero]
  omega

/-- Settles O18: with no room DATA is ignored, and the phase says when there is none. -/
theorem dataIsIgnoredAtCapacity : Obligations.DataIsIgnoredAtCapacity := by
  refine ⟨fun value seq ignored s full => ?_, fun s phase => State.cap_le_len_iff phase⟩
  exact (execData_ignored full value seq ignored).trans (congrArg _ (State.accept_eq ..))

/-- Settles O19: the next BUF is the old one with the byte at index `LEN` written, whether or not the message is then
full. -/
theorem dataAppendsOrCompletes : Obligations.DataAppendsOrCompletes := by
  intro value seq ignored s room
  have room : s.len.toNat < s.cap.toNat := room
  have index : s.len.toNat < 255 := State.len_lt_bufDepth room
  refine ⟨by omega, s.buf.write s.len.toNat value, Memory.read_write s.buf s.len.toNat value, ?_⟩
  split
  case isTrue last => exact (execData_completed last value seq ignored).trans (congrArg _ (State.accept_eq ..))
  case isFalse notLast =>
    exact (execData_appended (by omega) value seq ignored).trans (congrArg _ (State.accept_eq ..))

/-- Settles O20: collecting the `LEN` bytes gathered cannot fault. -/
theorem eomTerminates : Obligations.EomTerminates := fun pad seq ignored s =>
  (execEom_eq pad seq ignored s).trans (congrArg _ (State.accept_eq ..))

/-! ## The phase table (R96) -/

/-- The message of the DATA that fills the declared length has that length. -/
theorem State.length_completed {s : State} (last : s.len.toNat + 1 = s.cap.toNat) (value : Byte) :
    (s.gathered ++ [value]).length = s.cap.toNat := by
  rw [List.length_append, State.length_gathered, List.length_singleton, last]

/-- The row of DECL: a declared length of 0 leaves no message open. -/
theorem phase_after_decl (len : Byte) (seq ignored : Word) (s : State) :
    ∃ t, exec (.decl len seq ignored) s = .next t ∧ t.msg = none ∧
      if len = 0 then t.idle else t.accum ∧ t.cap = len ∧ t.len = 0 := by
  refine ⟨_, execDecl_eq len seq ignored s, rfl, ?_⟩
  split
  case isTrue empty => exact ⟨empty, rfl⟩
  case isFalse nonempty =>
    have accum : (0 : Byte).toNat < len.toNat := Nat.pos_of_ne_zero (BitVec.toNat_ne.mp nonempty)
    exact ⟨accum, rfl, rfl⟩

/-- The row of DATA: ignored in phase IDLE, else it completes the message or leaves it open. -/
theorem phase_after_data {s : State} (phase : s.phaseOk) (value : Byte) (seq ignored : Word) :
    ∃ t, exec (.data value seq ignored) s = .next t ∧
      if s.cap = 0 then t.idle ∧ t.msg = none
      else if s.len.toNat + 1 = s.cap.toNat then t.idle ∧ ∃ m, t.msg = some m ∧ m.length = s.cap.toNat
      else t.accum ∧ t.cap = s.cap ∧ t.len = s.len + 1 ∧ t.msg = none := by
  have full_iff := State.cap_le_len_iff phase
  obtain ⟨full, ignores⟩ | ⟨last, completes⟩ | ⟨room, appends⟩ := execData_cases value seq ignored s
  · refine ⟨_, ignores, ?_⟩
    have idle : s.idle := phase.resolve_left (Nat.not_lt.mpr full)
    rw [if_pos idle.1]
    exact ⟨idle, rfl⟩
  · refine ⟨_, completes, ?_⟩
    rw [if_neg (mt full_iff.mpr (by omega)), if_pos last]
    exact ⟨⟨rfl, rfl⟩, _, rfl, State.length_completed last value⟩
  · refine ⟨_, appends, ?_⟩
    rw [if_neg (mt full_iff.mpr (by omega)), if_neg room.ne]
    have stillOpen : s.len + 1 < s.cap := by bv_omega
    exact ⟨stillOpen, rfl, rfl, rfl⟩

/-- While a declaration is active, less is gathered than it declares. -/
theorem State.length_gathered_lt {s : State} (phase : s.phaseOk) (active : s.cap ≠ 0) :
    s.gathered.length < s.cap.toNat := by
  rw [State.length_gathered]
  exact Nat.not_le.mp (mt (State.cap_le_len_iff phase).mp active)

theorem State.gathered_eq_nil {s : State} (phase : s.phaseOk) (inactive : s.cap = 0) : s.gathered = [] := by
  have idle : s.idle := phase.resolve_left (Nat.not_lt.mpr ((State.cap_le_len_iff phase).mpr inactive))
  have length : s.gathered.length = 0 := s.length_gathered.trans (congrArg BitVec.toNat idle.2)
  exact List.eq_nil_of_length_eq_zero length

/-- The row of EOM: the phase is IDLE after it, and the message is what was gathered. -/
theorem phase_after_eom {s : State} (phase : s.phaseOk) (pad : Byte) (seq ignored : Word) :
    ∃ t, exec (.eom pad seq ignored) s = .next t ∧ t.idle ∧
      ∃ m, t.msg = some m ∧ m.length = s.len.toNat ∧ (s.cap = 0 → m = []) ∧ (s.cap ≠ 0 → m.length < s.cap.toNat) :=
  ⟨_, execEom_eq pad seq ignored s, ⟨rfl, rfl⟩, s.gathered, rfl, s.length_gathered, State.gathered_eq_nil phase,
    State.length_gathered_lt phase⟩

/-- Settles O23, row by row. -/
theorem phaseTable : Obligations.PhaseTable := fun s seq ignored phase =>
  ⟨fun len => phase_after_decl len seq ignored s, fun value => phase_after_data phase value seq ignored,
    fun pad => phase_after_eom phase pad seq ignored⟩

/-! ## How long an emitted message is (R97) -/

/-- A message is emitted by the DATA that completes it or by EOM, and is then as long as `CAP` or `LEN` says. -/
theorem Executed.message_length {i : Instr} {s t : State} {r : Report} {m : List Byte} (h : Executed s i t)
    (result : t.result = some r) (msg : r.msg = some m) :
    r.acc = .completed ∧ s.len.toNat + 1 = s.cap.toNat ∧ m.length = s.cap.toNat ∨
      r.acc = .terminated ∧ m.length = s.len.toNat := by
  cases h with
  | completed value seq ignored last =>
    cases result
    cases msg
    exact .inl ⟨rfl, last, State.length_completed last value⟩
  | terminated =>
    cases result
    cases msg
    exact .inr ⟨rfl, s.length_gathered⟩
  | declared | ignored | appended | invalidMetadata | invalidData | key =>
    cases result
    cases msg

/-- A sample that emits a message is executed, neither consumed while halted nor dropped. -/
theorem exists_executed_of_message {raw : Word} {s t : State} {r : Report} {m : List Byte}
    (h : sampleStep raw s = .next t) (result : t.result = some r) (msg : r.msg = some m) : ∃ i, Executed s i t := by
  obtain ⟨-, rfl⟩ | ⟨-, -, rfl⟩ | ⟨-, i, -, executed⟩ := sampleStep_next h
  · cases result
    cases msg
  · cases result
    cases msg
  · exact ⟨i, executed⟩

/-- Settles O42: the message is as long as `CAP` or `LEN` was before the sample, and the phase bounds both. -/
theorem messageLengths : Obligations.MessageLengths := by
  intro s raw rest t r m offered phase h result msg
  obtain ⟨i, executed⟩ := exists_executed_of_message (offered.step_eq.symm.trans h) result msg
  have cap_lt := s.cap.isLt
  have bounds := State.phaseOk_iff.mp phase
  obtain ⟨completed, last, length⟩ | ⟨terminated, length⟩ := executed.message_length result msg
  · rw [State.tookInput_len, State.tookInput_cap] at last
    rw [State.tookInput_cap] at length
    exact ⟨by omega, .inl ⟨completed, length, by omega⟩⟩
  · rw [State.tookInput_len] at length
    refine ⟨by omega, .inr ⟨terminated, length, by omega, fun active => ?_⟩⟩
    rw [length, ← s.length_gathered]
    exact State.length_gathered_lt phase active

end Sys2Proof.Machine
end

section
/-! The sample transaction (spec/42_transaction.md): the step is the rules' pseudocode, what each outcome of a sample
leaves and presents, what the ports show of it, and which block an opcode-table word runs in. -/

namespace Sys2Proof.Machine

/-! ## The instruction a sample decodes to has its bits (R69, R107) -/

section Decoded

variable {P : Profile} {raw : Word} {i : Instr}

theorem frameBits_of_decoded (wf : P.WF) (good : decode P raw = .ok i) : frameBits P i = raw.setWidth 24 :=
  congrArg (BitVec.setWidth 24) (encodeOfDecodeIsTheSample P raw i wf good).2

theorem checksum_of_decoded (wf : P.WF) (good : decode P raw = .ok i) : i.checksum P = computed P raw := by
  obtain ⟨-, rfl⟩ := decode_eq_ok_iff.mp good
  exact checksum_classify wf

end Decoded

/-! ## What the pseudocode answers, outcome by outcome (R95, R106) -/

section Pseudocode

variable {p : Params} {l l' : ListState} {raw : Word}

theorem listAccept_ignored (value : Byte) (noRoom : l.cap.toNat ≤ l.buf.length) :
    listAccept (.dataByte value) l = (l, .ignored, none) := if_pos noRoom

theorem listAccept_completed (value : Byte) (last : l.buf.length + 1 = l.cap.toNat) :
    listAccept (.dataByte value) l = ({ l with cap := 0, buf := [] }, .completed, some (l.buf ++ [value])) :=
  (if_neg (by omega)).trans (if_pos last)

theorem listAccept_appended (value : Byte) (room : l.buf.length + 1 < l.cap.toNat) :
    listAccept (.dataByte value) l = ({ l with buf := l.buf ++ [value] }, .appended, none) :=
  (if_neg (by omega)).trans (if_neg room.ne)

theorem listStep_halted (halted : l.halt = true) :
    listStep p l raw = (l, ⟨.halted, .decl, .none, raw.setWidth 24, 0, none, none, l.viol, l.halt⟩) := if_pos halted

theorem listStep_mismatch (running : l.halt = false) (bad : decodeFrame p.profile raw = .error .checksumMismatch) :
    listStep p l raw =
      (l,
        ⟨.checksumMismatch, .decl, .none, raw.setWidth 24, computed p.profile raw, none, none, l.viol, l.halt⟩) := by
  simp [listStep, running, bad]

/-- A frame of the reassembler is answered by the branch of `accept` it takes. -/
theorem listStep_accept (running : l.halt = false) {f : Frame} (good : decodeFrame p.profile raw = .ok f)
    (layoutA : ∀ k, f ≠ .keyRecord k) {acc : Acc} {msg : Option (List Byte)}
    (branch : listAccept f l = (l', acc, msg)) :
    listStep p l raw =
      (l', ⟨.ok, Frame.kind f, acc, raw.setWidth 24, computed p.profile raw, msg, none, l'.viol, l'.halt⟩) := by
  cases f with
  | keyRecord k => exact absurd rfl (layoutA k)
  | declareLength | endOfMessage | dataByte => simp [listStep, running, good, branch]

theorem listStep_key (running : l.halt = false) {k : KeyRecord}
    (good : decodeFrame p.profile raw = .ok (.keyRecord k)) :
    listStep p l raw =
      (l, ⟨.ok, .key, .none, raw.setWidth 24, computed p.profile raw, none, some k, l.viol, l.halt⟩) := by
  simp [listStep, running, good]

/-- `HALT` after a violation as the pseudocode and the statements write it (R106, R110). -/
theorem haltAfterViolation_eq (policy : ViolationPolicy) (halt : Bool) :
    haltAfterViolation policy halt = if policy = .halt then true else halt := by
  cases policy <;> rfl

theorem listStep_invalidMetadataType (running : l.halt = false)
    (rejected : decodeFrame p.profile raw = .error .invalidMetadataType) :
    listStep p l raw =
      ({ l with viol := true, halt := haltAfterViolation p.policy l.halt },
        ⟨.invalidMetadataType, .decl, .none, raw.setWidth 24, computed p.profile raw, none, none, true,
          haltAfterViolation p.policy l.halt⟩) := by
  simp [listStep, running, rejected, haltAfterViolation_eq]

theorem listStep_invalidDataType (running : l.halt = false)
    (rejected : decodeFrame p.profile raw = .error .invalidDataType) :
    listStep p l raw =
      ({ l with viol := true, halt := haltAfterViolation p.policy l.halt },
        ⟨.invalidDataType, .decl, .none, raw.setWidth 24, computed p.profile raw, none, none, true,
          haltAfterViolation p.policy l.halt⟩) := by
  simp [listStep, running, rejected, haltAfterViolation_eq]

end Pseudocode

/-! ## The step is the pseudocode (R25, R106) -/

/-- The state and its result are the pseudocode's answer: its next state in list form, its result record. -/
structure State.Shows (t : State) (answer : ListState × Report) : Prop where
  view : t.view = answer.1
  result : t.result = some answer.2

theorem State.length_view_buf (s : State) : s.view.buf.length = s.len.toNat := s.length_gathered

/-- Each way of executing an instruction is the pseudocode's branch for its frame. -/
theorem Executed.shows_listStep {i : Instr} {s t : State} {raw : Word} (h : Executed s i t) (wf : s.params.WF)
    (running : s.halt = false) (good : decode s.params.profile raw = .ok i) :
    t.Shows (listStep s.params s.view raw) := by
  have running : s.view.halt = false := running
  have frame := decodeFrame_of_decoded good
  have length := s.length_view_buf
  have bits := frameBits_of_decoded wf.1 good
  have checksum := checksum_of_decoded wf.1 good
  cases h with
  | declared | terminated =>
    rw [listStep_accept running frame nofun rfl, ← bits, ← checksum]
    exact ⟨rfl, rfl⟩
  | ignored value seq ignored noRoom =>
    rw [listStep_accept running frame nofun (listAccept_ignored value (length ▸ noRoom)), ← bits, ← checksum]
    exact ⟨rfl, rfl⟩
  | completed value seq ignored last =>
    rw [listStep_accept running frame nofun (listAccept_completed value (length ▸ last)), ← bits, ← checksum]
    exact ⟨rfl, rfl⟩
  | appended value seq ignored room =>
    have gathered := State.gathered_appended (lt_trans room s.cap.isLt) value
    rw [listStep_accept running frame nofun (listAccept_appended value (length ▸ room)), ← bits, ← checksum]
    exact ⟨congrArg (ListState.mk s.cap · s.viol s.halt) gathered, rfl⟩
  | invalidMetadata =>
    rw [listStep_invalidMetadataType running frame, ← bits, ← checksum]
    exact ⟨rfl, rfl⟩
  | invalidData =>
    rw [listStep_invalidDataType running frame, ← bits, ← checksum]
    exact ⟨rfl, rfl⟩
  | key =>
    rw [listStep_key running frame, ← bits, ← checksum]
    exact ⟨rfl, rfl⟩

theorem sampleStep_shows_listStep {raw : Word} {s t : State} (h : sampleStep raw s = .next t) (wf : s.params.WF) :
    t.Shows (listStep s.params s.view raw) := by
  obtain ⟨halted, rfl⟩ | ⟨running, bad, rfl⟩ | ⟨running, i, good, executed⟩ := sampleStep_next h
  · rw [listStep_halted (l := s.view) halted]
    exact ⟨rfl, rfl⟩
  · rw [listStep_mismatch (l := s.view) running (decodeFrame_of_mismatch bad)]
    exact ⟨rfl, rfl⟩
  · exact executed.shows_listStep wf running good

/-- Settles O43. Looking at the ports changes nothing of the list form, so the step refines the pseudocode as its sample
does. -/
theorem stepRefinesThePseudocode : Obligations.StepRefinesThePseudocode := by
  intro s raw rest offered
  obtain ⟨t, takes⟩ := exists_sampleStep_next raw (s.tookInput rest)
  have shows := sampleStep_shows_listStep takes offered.params
  obtain ⟨params, inputs, -⟩ := sampleStep_params_inputs_tick takes
  exact ⟨t, offered.step_eq.trans takes, shows.view, shows.result, params, inputs⟩

/-! ## A sample that does not match (R109) -/

/-- No meaning reads the result presented before it. -/
theorem exec_ignores_result (i : Instr) (s : State) (presented : Option Report) :
    exec i { s with result := presented } = exec i s := by
  cases i with
  | data value seq ignored =>
    obtain ⟨noRoom, eq⟩ | ⟨last, eq⟩ | ⟨room, eq⟩ := execData_cases value seq ignored s
    · exact (execData_ignored (s := { s with result := presented }) noRoom ..).trans eq.symm
    · exact (execData_completed (s := { s with result := presented }) last ..).trans eq.symm
    · exact (execData_appended (s := { s with result := presented }) room ..).trans eq.symm
  | eom pad seq ignored => exact (execEom_eq pad seq ignored _).trans (execEom_eq pad seq ignored s).symm
  | decl | invalidMetadataType | invalidDataType | key => rfl

theorem sampleStep_ignores_result (raw : Word) (s : State) (presented : Option Report) :
    sampleStep raw { s with result := presented } = sampleStep raw s := by
  obtain ⟨halted, eq⟩ | ⟨running, bad, eq⟩ | ⟨running, i, good, eq⟩ := sampleStep_cases raw s
  · exact (sampleStep_halted (s := { s with result := presented }) halted raw).trans eq.symm
  · exact (sampleStep_mismatch (s := { s with result := presented }) running bad).trans eq.symm
  · rw [eq, ← exec_ignores_result i s presented]
    exact sampleStep_decoded (s := { s with result := presented }) running good

theorem onPorts_ignores_result (p : InPorts) (s : State) (presented : Option Report) :
    onPorts p { s with result := presented } = onPorts p s := by
  cases reset : p.rst with
  | true => rw [onPorts_reset reset, onPorts_reset reset]; rfl
  | false =>
    cases valid : p.inValid with
    | true => rw [onPorts_sample reset valid, onPorts_sample reset valid, sampleStep_ignores_result]
    | false => rw [onPorts_idle reset valid, onPorts_idle reset valid]; rfl

theorem step_ignores_result (s : State) (presented : Option Report) : step { s with result := presented } = step s := by
  by_cases wf : s.params.WF
  · cases inputs : s.inputs with
    | nil =>
      rw [step_of_noInputs wf inputs]
      exact step_of_noInputs wf rfl
    | cons p rest =>
      rw [step_of_inputs wf inputs, ← onPorts_ignores_result p (s.tookInput rest) presented]
      exact step_of_inputs (s := { s with inputs := p :: rest, result := presented }) wf rfl
  · exact (step_of_illFormed (s := { s with result := presented }) wf).trans (step_of_illFormed wf).symm

/-- Settles O25: the mismatch is the decoder's refusal, and no outcome of a step reads the result. -/
theorem mismatchIsDropped : Obligations.MismatchIsDropped := by
  refine ⟨fun s raw rest offered running mismatch => ?_, step_ignores_result⟩
  have invalid : checksumValid s.params.profile raw = false :=
    Bool.eq_false_iff.mpr (mt checksumValid_iff.mp mismatch)
  exact offered.step_eq.trans (sampleStep_mismatch (s := s.tookInput rest) running (decode_eq_error_iff.mpr invalid))

/-! ## A halted block (R111) -/

theorem State.noReset_of_noInputs {s : State} (inputs : s.inputs = []) : s.NoReset := fun p rest offered => by
  rw [inputs] at offered
  cases offered

theorem State.noReset_iff {s : State} {p : InPorts} {rest : List InPorts} (inputs : s.inputs = p :: rest) :
    s.NoReset ↔ p.rst = false := by
  refine ⟨fun noReset => noReset p rest inputs, fun clear q rest' inputs' => ?_⟩
  cases inputs.symm.trans inputs'
  exact clear

/-- A step leaves `HALT` set unless it is a reset. -/
theorem step_halt_of_halted {s t : State} (halted : s.halt = true) (h : step s = .next t) :
    t.halt = true ↔ s.NoReset := by
  obtain ⟨-, ⟨inputs, rfl⟩ | ⟨p, rest, inputs, moment⟩⟩ := step_cases h
  · exact iff_of_true halted (State.noReset_of_noInputs inputs)
  · rw [State.noReset_iff inputs]
    obtain ⟨reset, rfl⟩ | ⟨clear, -, rfl⟩ | ⟨clear, -, sample⟩ := moment
    · simp [reset]
    · exact iff_of_true halted clear
    · cases (sampleStep_halted (s := s.tookInput rest) halted p.inData).symm.trans sample
      exact iff_of_true halted clear

/-- Settles O26: the invariant has `HALT` set only under the policy `halt` and with `VIOL` set. -/
theorem haltedConsumesSamples : Obligations.HaltedConsumesSamples := by
  intro s inv halted
  refine ⟨inv.haltPolicy halted, fun raw rest offered => ?_, fun t h => ?_⟩
  · have consumes := offered.step_eq.trans (sampleStep_halted (s := s.tookInput rest) halted raw)
    simpa [State.haltedReport, State.present, State.tookInput, halted, inv.haltViol halted] using consumes
  · rw [← step_halt_of_halted halted h, Bool.not_eq_true]

/-! ## The result of a sample (R69, R107, R114) -/

/-- The result an instruction presents has its sample's bits and checksum, and the flags as they then stand. -/
theorem Executed.report {i : Instr} {s t : State} (h : Executed s i t) :
    ∃ r, t.result = some r ∧ r.frame24 = frameBits s.params.profile i ∧
      r.computed = i.checksum s.params.profile ∧ r.viol = t.viol ∧ r.halt = t.halt := by
  cases h <;> exact ⟨_, rfl, rfl, rfl, rfl, rfl⟩

theorem sampleStep_report {raw : Word} {s t : State} (h : sampleStep raw s = .next t) (wf : s.params.WF) :
    ∃ r, t.result = some r ∧ r.frame24 = raw.setWidth 24 ∧
      r.computed = (if s.halt = true then 0 else computed s.params.profile raw) ∧ r.viol = t.viol ∧
      r.halt = t.halt := by
  obtain ⟨halted, rfl⟩ | ⟨running, -, rfl⟩ | ⟨running, i, good, executed⟩ := sampleStep_next h
  · exact ⟨_, rfl, rfl, (if_pos halted).symm, rfl, rfl⟩
  · exact ⟨_, rfl, rfl, by simp [running], rfl, rfl⟩
  · obtain ⟨r, result, bits, checksum, flags⟩ := executed.report
    refine ⟨r, result, bits.trans (frameBits_of_decoded wf.1 good), ?_, flags⟩
    simp [running, checksum, checksum_of_decoded wf.1 good]

/-- Settles O31: the step of an offered sample completes and presents that sample's report. -/
theorem resultCarriesTheSample : Obligations.ResultCarriesTheSample := by
  intro s raw rest offered
  obtain ⟨t, takes⟩ := exists_sampleStep_next raw (s.tookInput rest)
  obtain ⟨r, result, bits, checksum, flags⟩ := sampleStep_report takes offered.params
  rw [BitVec.setWidth_eq_extractLsb' (by decide)] at bits
  exact ⟨t, r, offered.step_eq.trans takes, result, bits, checksum, flags⟩

/-- A moment without a sample or a reset: the block waits. -/
theorem step_of_quiet {s : State} (wf : s.params.WF)
    (quiet : ∀ p rest, s.inputs = p :: rest → p.rst = false ∧ p.inValid = false) :
    step s = .next (s.tookInput s.inputs.tail).wait := by
  cases inputs : s.inputs with
  | nil => exact step_of_noInputs wf inputs
  | cons p rest =>
    obtain ⟨clear, noSample⟩ := quiet p rest inputs
    exact (step_of_inputs wf inputs).trans (onPorts_idle clear noSample _)

/-- Settles O30: every sample completes with a report, and a quiet moment only waits. -/
theorem oneResultPerSample : Obligations.OneResultPerSample := by
  refine ⟨fun s raw rest offered => ?_, fun s wf quiet => ?_⟩
  · obtain ⟨t, takes⟩ := exists_sampleStep_next raw (s.tookInput rest)
    obtain ⟨r, result, -⟩ := sampleStep_report takes offered.params
    obtain ⟨-, inputs, -⟩ := sampleStep_params_inputs_tick takes
    exact ⟨t, r, offered.step_eq.trans takes, result, inputs⟩
  · exact ⟨_, step_of_quiet wf quiet, rfl, rfl, rfl, rfl, rfl, .inl rfl⟩

/-! ## At most one output (R108) -/

/-- What is emitted is of the instruction's own layout. -/
theorem Executed.output {i : Instr} {s t : State} (h : Executed s i t) :
    (i.layout = .a → t.key = none) ∧ (i.layout = .b → t.msg = none) := by
  cases h with
  | key => exact ⟨nofun, fun _ => rfl⟩
  | declared | terminated | ignored | completed | appended | invalidMetadata | invalidData =>
    exact ⟨fun _ => rfl, nofun⟩

theorem sampleStep_output {raw : Word} {s t : State} (h : sampleStep raw s = .next t) (wf : s.params.WF) :
    (s.params.layout = .a → t.key = none) ∧ (s.params.layout = .b → t.msg = none) := by
  obtain ⟨-, rfl⟩ | ⟨-, -, rfl⟩ | ⟨-, i, good, executed⟩ := sampleStep_next h
  · exact ⟨fun _ => rfl, fun _ => rfl⟩
  · exact ⟨fun _ => rfl, fun _ => rfl⟩
  · rw [← wf.2, ← decode_layout good]
    exact executed.output

theorem step_output {s t : State} (h : step s = .next t) :
    (s.params.layout = .a → t.key = none) ∧ (s.params.layout = .b → t.msg = none) := by
  obtain ⟨wf, ⟨-, rfl⟩ | ⟨p, rest, -, ⟨-, rfl⟩ | ⟨-, -, rfl⟩ | ⟨-, -, sample⟩⟩⟩ := step_cases h
  · exact ⟨fun _ => rfl, fun _ => rfl⟩
  · exact ⟨fun _ => rfl, fun _ => rfl⟩
  · exact ⟨fun _ => rfl, fun _ => rfl⟩
  · exact sampleStep_output (s := s.tookInput rest) sample wf

/-- Settles O35: an instance has one layout, and each layout presents its own output only. -/
theorem atMostOneOutput : Obligations.AtMostOneOutput := by
  intro s t h
  obtain ⟨layoutA, layoutB⟩ := step_output h
  refine ⟨?_, layoutA, layoutB⟩
  cases layout : s.params.layout with
  | a => exact .inr (layoutA layout)
  | b => exact .inl (layoutB layout)

/-! ## The step of a decoded sample (R106, R110, R112, R113) -/

/-- Reporting a violation writes the flags and the result and nothing else. -/
theorem State.raiseViolation_eq (s : State) (st : Status) (i : Instr) :
    s.raiseViolation st i =
      { s with viol := true, halt := s.haltAfter, result := some (s.violationReport st i) } := by
  have halt : haltAfterViolation s.params.policy s.halt = s.haltAfter := haltAfterViolation_eq ..
  simp [State.raiseViolation, State.present, State.setViolation, State.violationReport, frameBits, halt]

/-- Settles O21, by the meanings of the two rejected classes and what reporting a violation writes. -/
theorem violationsAreReported : Obligations.ViolationsAreReported := fun code payload seq ignored s =>
  ⟨(execInvalidMetadataType_eq code payload seq ignored s).trans (congrArg _ (State.raiseViolation_eq ..)),
    (execInvalidDataType_eq code payload seq ignored s).trans (congrArg _ (State.raiseViolation_eq ..))⟩

/-- Settles O22, by the meaning of KEY and what accepting it writes. -/
theorem keyIsEmittedAtOnce : Obligations.KeyIsEmittedAtOnce := fun code vk ctrl alt shift win seq ignored s =>
  (execKey_eq code vk ctrl alt shift win seq ignored s).trans (congrArg _ (State.accept_eq ..))

/-- Settles O24: the sample is taken from the ports, then its instruction is executed. -/
theorem stepRunsTheDecodedInstruction : Obligations.StepRunsTheDecodedInstruction :=
  fun s _ rest _ offered running good =>
    offered.step_eq.trans (sampleStep_decoded (s := s.tookInput rest) running good)

/-! ## The opcode-table word (R106, R143; log 9) -/

/-- A table word is read under one of the two default profiles. -/
theorem decodeTableWord_cases {nbits w : Nat} {i : Instr} (decoded : decodeTableWord nbits w = some i) :
    decode profileA (tableWord nbits w) = .ok i ∨ decode profileB (tableWord nbits w) = .ok i := by
  unfold decodeTableWord at decoded
  split at decoded
  case h_1 j readA =>
    cases decoded
    exact .inl readA
  case h_2 =>
    cases readB : decode profileB (tableWord nbits w) with
    | ok j =>
      rw [readB] at decoded
      cases decoded
      exact .inr rfl
    | error =>
      rw [readB] at decoded
      cases decoded

/-- What a table word stands for, the default profile of the instruction's layout reads in it. -/
theorem decode_default_of_tableWord {nbits w : Nat} {i : Instr} (decoded : decodeTableWord nbits w = some i)
    (policy : ViolationPolicy) : decode (Params.default i.layout policy).profile (tableWord nbits w) = .ok i := by
  obtain read | read := decodeTableWord_cases decoded <;> rw [decode_layout read] <;> exact read

theorem State.withFetchWord_of_decoded {nbits w : Nat} {i : Instr} (decoded : decodeTableWord nbits w = some i)
    (s : State) : s.withFetchWord nbits w = (s.instanceFor (tableWord nbits w) i).offer (tableWord nbits w) := by
  unfold State.withFetchWord State.offerTableWord
  rw [decoded]

/-- A sample delivered to a block that takes it as `i` is run as `i` in the block's state. -/
theorem step_offer_of_runs {s : State} {raw : Word} {i : Instr} (runs : s.runs raw i) :
    step (s.offer raw) = exec i { s with tick := s.tick + 1 } := by
  obtain ⟨wf, running, good⟩ := runs
  exact stepRunsTheDecodedInstruction (s.offer raw) raw s.inputs i ⟨wf, rfl⟩ running good

/-- Settles O48: the block the word is delivered to takes it as the instruction, the running block by the premise and a
new instance by its layout's default profile. -/
theorem tableWordRunsNext : Obligations.TableWordRunsNext := by
  intro s nbits w i decoded
  rw [State.withFetchWord_of_decoded decoded]
  obtain ⟨runs, same⟩ | ⟨otherwise, fresh⟩ := s.instanceFor_cases (tableWord nbits w) i
  · rw [if_pos runs, same]
    exact step_offer_of_runs runs
  · have wf := Params.default_wf i.layout s.params.policy
    rw [if_neg otherwise, fresh]
    exact ⟨_, wf, rfl, rfl, step_offer_of_runs ⟨wf, rfl, decode_default_of_tableWord decoded s.params.policy⟩⟩

/-! ## The output ports (R115, R139) -/

/-- The packed key flags, bit by bit. -/
theorem getLsbD_keyFlags (k : KeyRecord) :
    (keyFlags k).getLsbD 4 = k.isVirtualKey ∧ (keyFlags k).getLsbD 3 = k.ctrl ∧ (keyFlags k).getLsbD 2 = k.alt ∧
      (keyFlags k).getLsbD 1 = k.shift ∧ (keyFlags k).getLsbD 0 = k.win := by
  simp only [keyFlags, BitVec.getLsbD_append]
  simp

theorem State.msgLane_of_lt (s : State) {msg : List Byte} {i : Nat} (h : i < msg.length) :
    s.msgLane msg i = msg[i] := by
  simp [State.msgLane, h]

theorem State.inReady_eq_false_iff {s : State} {p : InPorts} {rest : List InPorts} (inputs : s.inputs = p :: rest) :
    s.inReady = false ↔ p.rst = true := by
  simp [State.inReady, inputs]

/-- The message lanes while a message is presented. -/
theorem State.outPorts_msg {s : State} {m : List Byte} (msg : s.msg = some m) (short : m.length ≤ 255) :
    s.outPorts.outMsgLen.toNat = m.length ∧ s.outPorts.outMsgData.length = 255 ∧
      ∀ i, (h : i < m.length) → s.outPorts.outMsgData[i]? = some m[i] := by
  refine ⟨?_, ?_, fun i h => ?_⟩
  · simp only [State.outPorts, msg, Option.map_some, Option.getD_some, BitVec.toNat_ofNat]
    omega
  · simp [State.outPorts, bufDepth]
  · have lane : i < bufDepth := h.trans_le short
    simp [State.outPorts, msg, lane, State.msgLane_of_lt s h]

/-- Settles O47, lane by lane: the codes and flags stand on the ports as the record has them. -/
theorem portsShowTheResult : Obligations.PortsShowTheResult := by
  intro s r result
  have msg : s.msg = r.msg := congrArg (Option.bind · Report.msg) result
  have key : s.key = r.key := congrArg (Option.bind · Report.key) result
  refine ⟨?_, fun m emitted => State.outPorts_msg (msg.trans emitted), fun k emitted => ?_,
    fun p rest => State.inReady_eq_false_iff⟩
  · simp [State.outPorts, result, msg, key]
  · simpa [State.outPorts, key, emitted] using getLsbD_keyFlags k

end Sys2Proof.Machine
end

section
/-! The outcomes of a sample (spec/60_exceptions.md): the order in which they are reported (R125), and that a rejected
sample leaves the reassembler as it was (R126). -/

namespace Sys2Proof.Machine

/-! ## The status a sample is reported with (R107, R120, R125) -/

/-- The code a running block reports for the codec's answer: OK for a frame, else the codec's rejection (R120). -/
def codecStatus : Except CodecError Frame → Status
  | .ok _ => .ok
  | .error .checksumMismatch => .checksumMismatch
  | .error .invalidMetadataType => .invalidMetadataType
  | .error .invalidDataType => .invalidDataType

/-- Executing an instruction reports the code of its frame, whatever the reassembler does with it. -/
theorem Executed.status {i : Instr} {s t : State} (h : Executed s i t) :
    ∃ r, t.result = some r ∧ r.st = codecStatus i.frame := by
  cases h with
  | declared | terminated | ignored | completed | appended | key => exact ⟨_, rfl, rfl⟩
  | invalidMetadata | invalidData => exact ⟨_, rfl, rfl⟩

/-- A halted block does not ask the codec; a running one reports the codec's answer. -/
theorem sampleStep_status {raw : Word} {s t : State} (h : sampleStep raw s = .next t) :
    ∃ r, t.result = some r ∧
      r.st = if s.halt = true then .halted else codecStatus (decodeFrame s.params.profile raw) := by
  obtain ⟨halted, rfl⟩ | ⟨running, bad, rfl⟩ | ⟨running, i, good, executed⟩ := sampleStep_next h
  · exact ⟨_, rfl, (if_pos halted).symm⟩
  · rw [running, decodeFrame_of_mismatch bad]
    exact ⟨_, rfl, rfl⟩
  · rw [running, decodeFrame_of_decoded good]
    exact executed.status

/-- The code of a sample's class: a type error of Layout A, else OK (R78, R79). -/
theorem codecStatus_frame_classify (P : Profile) (raw : Word) :
    codecStatus (classify P raw).frame =
      if P.kind = .b then .ok
      else if P.read raw .isMetadata = 1 then
        if P.read raw .messageType = 0 ∨ P.read raw .messageType = 15 then .ok else .invalidMetadataType
      else if P.read raw .messageType = 0 then .ok
      else .invalidDataType := by
  cases kind : P.kind with
  | b => rw [classify_b kind]; rfl
  | a =>
    rw [classify_a kind, if_neg (show ¬ Layout.a = .b by decide), ite_or]
    split_ifs <;> rfl

/-- The codec's own order: the checksum before the class (R74). -/
theorem codecStatus_decodeFrame (P : Profile) (raw : Word) :
    codecStatus (decodeFrame P raw) =
      if (computed P raw).setWidth 32 ≠ P.read raw P.csum then .checksumMismatch
      else codecStatus (classify P raw).frame := by
  split_ifs with bad
  · rw [(checksumIsCheckedFirst P raw).mpr bad]
    rfl
  · rw [decodeFrame_of_decoded (decode_eq_ok_iff.mpr ⟨checksumValid_iff.mpr (not_not.mp bad), rfl⟩)]

/-- Settles O29: the block's own order, then the codec's, then the class. -/
theorem outcomePriority : Obligations.OutcomePriority := by
  intro s raw rest offered
  obtain ⟨t, takes⟩ := exists_sampleStep_next raw (s.tookInput rest)
  obtain ⟨r, result, status⟩ := sampleStep_status takes
  rw [codecStatus_decodeFrame, codecStatus_frame_classify, State.tookInput_params, offered.params.2] at status
  exact ⟨t, r, offered.step_eq.trans takes, result, status⟩

/-! ## What a rejected sample does (R87, R109, R110, R126) -/

/-- The only instructions not reported OK are the protocol violations. -/
theorem Executed.eq_raiseViolation {i : Instr} {s t : State} {r : Report} (h : Executed s i t)
    (result : t.result = some r) (rejected : r.st ≠ .ok) :
    ∃ st, (st = .invalidMetadataType ∨ st = .invalidDataType) ∧ t = s.raiseViolation st i := by
  cases h with
  | invalidMetadata => exact ⟨_, .inl rfl, rfl⟩
  | invalidData => exact ⟨_, .inr rfl, rfl⟩
  | declared | terminated | ignored | completed | appended | key =>
    cases result
    exact absurd rfl rejected

/-- All that a sample not reported OK can have done, in the order of R125. -/
theorem sampleStep_rejected {raw : Word} {s t : State} {r : Report} (h : sampleStep raw s = .next t)
    (result : t.result = some r) (rejected : r.st ≠ .ok) :
    t = s.haltedReport raw ∨ t = s.dropReport raw ∨
      ∃ st i, (st = .invalidMetadataType ∨ st = .invalidDataType) ∧ t = s.raiseViolation st i := by
  obtain ⟨-, halted⟩ | ⟨-, -, dropped⟩ | ⟨-, i, -, executed⟩ := sampleStep_next h
  · exact .inl halted
  · exact .inr (.inl dropped)
  · obtain ⟨st, violation, raised⟩ := executed.eq_raiseViolation result rejected
    exact .inr (.inr ⟨st, i, violation, raised⟩)

/-- Settles O33: a halted or dropped sample only presents its record, and a violation writes the flags beside it. -/
theorem rejectionsArePrecise : Obligations.RejectionsArePrecise := by
  intro s raw rest t r offered h result rejected
  obtain rfl | rfl | ⟨st, i, violation, rfl⟩ :=
    sampleStep_rejected (offered.step_eq.symm.trans h) result rejected
  · cases result
    exact ⟨rfl, rfl, rfl, rfl, rfl, fun _ => ⟨rfl, rfl⟩⟩
  · cases result
    exact ⟨rfl, rfl, rfl, rfl, rfl, fun _ => ⟨rfl, rfl⟩⟩
  · cases result
    refine ⟨rfl, rfl, rfl, rfl, rfl, fun (flagsKept : st = .checksumMismatch ∨ st = .halted) => ?_⟩
    obtain rfl | rfl := violation <;> exact absurd flagsKept (by decide)

end Sys2Proof.Machine
end

section
/-! Reset and the life of an instance (spec/70_reset_and_hazards.md): what a reset clears (R138 to R140), that nothing else
clears a flag, and that other parameters come only with a new instance (R143). -/

namespace Sys2Proof.Machine

/-! ## Reset (R138, R140) -/

/-- Reset goes before all else: whatever sample is offered with it, the block only resets (R139). -/
theorem step_of_reset {s : State} (wf : s.params.WF) {p : InPorts} {rest : List InPorts} (inputs : s.inputs = p :: rest)
    (reset : p.rst = true) : step s = .next (s.tookInput rest).applyReset :=
  (step_of_inputs wf inputs).trans (onPorts_reset reset _)

/-- A sample sets flags and clears none (R19, R20). -/
theorem sampleStep_flags_stay {raw : Word} {s t : State} (h : sampleStep raw s = .next t) :
    (s.viol = true → t.viol = true) ∧ (s.halt = true → t.halt = true) := by
  obtain ⟨viol, halt⟩ := sampleStep_flags_iff h
  exact ⟨fun set => viol.mpr (.inl set), fun set => halt.mpr (.inl set)⟩

/-- Without a reset the block waits, which writes no flag, or takes a sample, which clears none. -/
theorem step_flags_stay {s t : State} (noReset : s.NoReset) (h : step s = .next t) :
    (s.viol = true → t.viol = true) ∧ (s.halt = true → t.halt = true) := by
  obtain ⟨-, ⟨-, rfl⟩ | ⟨p, rest, inputs, ⟨reset, -⟩ | ⟨-, -, rfl⟩ | ⟨-, -, sample⟩⟩⟩ := step_cases h
  · exact ⟨id, id⟩
  · exact absurd reset (Bool.eq_false_iff.mp (noReset p rest inputs))
  · exact ⟨id, id⟩
  · exact sampleStep_flags_stay (s := s.tookInput rest) sample

/-- Settles O27: at a reset the block takes the moment and resets; at any other moment the set flags stay. -/
theorem resetAndOnlyResetClears : Obligations.ResetAndOnlyResetClears :=
  ⟨fun _ _ _ wf inputs reset => ⟨_, step_of_reset wf inputs reset, rfl, rfl, rfl, rfl, rfl, rfl, rfl⟩,
    fun _ _ => step_flags_stay⟩

/-! ## The parameters of an instance (R143; log 9, log 14) -/

theorem State.configure_eq (s : State) (p : Params) :
    s.configure p = if p = s.params then .next s else .refused .parametersChanged := by
  obtain ⟨same, kept⟩ | ⟨other, refused⟩ := s.configure_cases p
  · rw [kept, if_pos same]
  · rw [refused, if_neg other]

theorem State.withFetchWord_of_undecoded {nbits w : Nat} (undecoded : decodeTableWord nbits w = none) (s : State) :
    s.withFetchWord nbits w = s.offer (tableWord nbits w) := by
  unfold State.withFetchWord State.offerTableWord
  rw [undecoded]

/-- The two blocks a table word is delivered to: the running one, or a new instance of a default profile. -/
theorem State.withFetchWord_cases (s : State) (nbits w : Nat) :
    s.withFetchWord nbits w = s.offer (tableWord nbits w) ∨
      ∃ layout, s.withFetchWord nbits w =
        (s.newInstance (Params.default layout s.params.policy)).offer (tableWord nbits w) := by
  cases decoded : decodeTableWord nbits w with
  | none => exact .inl (State.withFetchWord_of_undecoded decoded s)
  | some i =>
    rw [State.withFetchWord_of_decoded decoded]
    obtain ⟨-, same⟩ | ⟨-, fresh⟩ := s.instanceFor_cases (tableWord nbits w) i
    · exact .inl (by rw [same])
    · exact .inr ⟨i.layout, by rw [fresh]⟩

/-- Settles O49: a word delivered to the running block leaves the parameters as they are, and a new instance starts at
the reset values. -/
theorem parametersChangeOnlyWithTheInstance : Obligations.ParametersChangeOnlyWithTheInstance := by
  refine ⟨State.configure_eq, ?_⟩
  intro s nbits w u changed
  obtain running | ⟨layout, fresh⟩ := s.withFetchWord_cases nbits w
  · exact absurd (congrArg State.params running) changed
  · have new : u = (s.newInstance (Params.default layout s.params.policy)).offer (tableWord nbits w) := fresh
    rw [new]
    exact ⟨Params.default_wf layout s.params.policy, rfl⟩

end Sys2Proof.Machine
end

section
/-! The words of the test vectors (spec/95_test_vectors.md sections 2.2 to 2.4): an accepted word is the encoding of the
instruction listed for it, a mismatched one shows a computed checksum other than its checksum field. -/

namespace Sys2Proof

theorem decode_of_encode_eq {P : Profile} {raw : Word} {i : Instr} (wf : P.WF) (hi : i.wellFormed P = true)
    (word : encode P i = raw) : decode P raw = .ok i :=
  word ▸ decodeOfEncodeIsTheInstruction P i wf hi

theorem decode_of_computed_ne {P : Profile} {raw : Word} {expected : Byte} {csum : Word}
    (hexpected : computed P raw = expected) (hcsum : P.read raw P.csum = csum) (differ : expected.setWidth 32 ≠ csum) :
    decode P raw = .error .checksumMismatch := by
  subst hexpected hcsum
  exact decode_eq_error_iff.mpr (Bool.eq_false_iff.mpr (mt checksumValid_iff.mp differ))

/-- Settles O15: six words are encodings, so they decode to their instruction; `0x00A80000` under PROFILE_A has computed
checksum 1 and `0x00800105` under PROFILE_B has 2, where the checksum field of both is 0. -/
theorem specWordsDecode : Obligations.SpecWordsDecode := by
  have readA {raw : Word} {i : Instr} := decode_of_encode_eq (raw := raw) (i := i) profileA_wf
  refine ⟨?decl, ?eom, ?data, ?metadataType, ?typeAndChecksum, ?dataType, ?key, ?otherLayout⟩
  case decl | eom | data | metadataType | dataType => exact readA (by decide) (by decide)
  case key => exact decode_of_encode_eq profileB_wf (by decide) (by decide)
  case typeAndChecksum => exact decode_of_computed_ne (expected := 1) (csum := 0) (by decide) (by decide) (by decide)
  case otherLayout => exact decode_of_computed_ne (expected := 2) (csum := 0) (by decide) (by decide) (by decide)

end Sys2Proof
end
